-- ==== Sys2Proof/Word.lean ====
section
/-! DEFINITION. The words of the ITCD block (00_scope.md R7, 30_encoding.md R100): everything is
unsigned; bit 0 is the least significant bit. A flag or a level is a `Bool`, `true` for 1
(00_scope.md, section 5). -/

namespace Sys2Proof

/-- A byte, 8 bits, 0..255 (00_scope.md R7). -/
abbrev Byte := BitVec 8

/-- A 16-bit register: `snooze`, `mux_div`, `cnt[b]` (10_state.md R23, R26, R31). -/
abbrev Half := BitVec 16

/-- A 4-bit register: `digit_idx`, `disp_idx_o`, `mode` (10_state.md R28, R31, R37). -/
abbrev Nibble := BitVec 4

/-- An event word, 24 bits (30_encoding.md R100). -/
abbrev EventWord := BitVec 24

end Sys2Proof
end

