-- ==== Sys2Proof/Syntax.lean ====
section
/-! DEFINITION. The nine operations of the ITCD block, one constructor per row of
spec/opcode_table.json (30_encoding.md R102). -/

namespace Sys2Proof

/-- An operation with the operands its event word carries (30_encoding.md R101, R102). -/
inductive Instr where
  /-- No event (45_host.md R292). -/
  | nop
  /-- The fast tick (40_mux.md R130). -/
  | ftick
  /-- The slow tick (42_rtc.md R180). -/
  | stick
  /-- The raw level of button pin `b` has changed to `lvl`; `lvl = false` is pressed
  (41_buttons.md R150). The value 3 of the two-bit index is reserved. -/
  | pin (b : BitVec 2) (lvl : Bool)
  /-- A conversion has completed with sample `v` (44_dimmer.md R251). -/
  | adcdone (v : Byte)
  /-- The alarm switch has changed to level `lvl`; `lvl = true` is enabled (43_alarm.md R231). -/
  | almsw (lvl : Bool)
  /-- The host writes `data` to HOST address `addr` (45_host.md R271). -/
  | hwr (addr data : Byte)
  /-- The host reads HOST address `addr` (45_host.md R270). -/
  | hrd (addr : Byte)
  /-- Boot, wake or warm restart (70_reset_and_hazards.md R330). -/
  | reset
  deriving DecidableEq, Repr

end Sys2Proof
end

