-- ==== Sys2Proof/WellFormed.lean ====
section
/-! DEFINITION. Which operations have an event word (30_encoding.md R102-R104). Every operand is
held at the width of its field, so one check is left: the button index 3 is reserved. -/

namespace Sys2Proof

/-- The operation is one of the 66060 that a legal event word selects (30_encoding.md R103): PIN
names a button 0..2, and every other operand takes every value of its field. -/
def Instr.wellFormed : Instr → Bool
  | .pin b _ => b != 3#2
  | .nop => true
  | .ftick => true
  | .stick => true
  | .adcdone _ => true
  | .almsw _ => true
  | .hwr _ _ => true
  | .hrd _ => true
  | .reset => true

end Sys2Proof
end

