-- ==== Sys2Proof/Decode.lean ====
section
/-! DEFINITION. Decoding and encoding of event words (30_encoding.md R100-R104), the byte form of a
word (R100, 20_memory.md R76), and the opcode table's masks and matches (R102). -/

namespace Sys2Proof

/-- Why a word or a byte string is no operation (30_encoding.md R103, R104). -/
inductive DecodeError where
  /-- `op` is above 0x08: there is no such row, and no custom or vendor space. -/
  | reservedOpcode (op : Byte)
  /-- A bit of the `a` field that the operation `op` does not use is not 0. -/
  | nonzeroA (op : Byte)
  /-- A bit of the `d` field that the operation `op` does not use is not 0. -/
  | nonzeroD (op : Byte)
  /-- PIN with button index 3. -/
  | pinButtonReserved
  /-- Fewer than the three bytes of an event word. -/
  | truncated
  deriving DecidableEq, Repr

/-- W[23:16] (30_encoding.md R100). -/
def EventWord.op (w : EventWord) : Byte := w.extractLsb' 16 8

/-- W[15:8] (30_encoding.md R100). -/
def EventWord.a (w : EventWord) : Byte := w.extractLsb' 8 8

/-- W[7:0] (30_encoding.md R100). -/
def EventWord.d (w : EventWord) : Byte := w.extractLsb' 0 8

/-- Builds a word from its three fields (30_encoding.md R100). -/
def EventWord.make (op a d : Byte) : EventWord := op ++ a ++ d

/-- An operation without operands: `a` and `d` must be 0 (30_encoding.md R101, R104). -/
def decodeBare (i : Instr) (op a d : Byte) : Except DecodeError Instr :=
  if a ≠ 0#8 then .error (.nonzeroA op)
  else if d ≠ 0#8 then .error (.nonzeroD op)
  else .ok i

/-- PIN: b = `a`[1:0], lvl = `d`[0], the other bits 0, b = 3 reserved (30_encoding.md R101, R102). -/
def decodePin (op a d : Byte) : Except DecodeError Instr :=
  if a.extractLsb' 2 6 ≠ 0#6 then .error (.nonzeroA op)
  else if d.extractLsb' 1 7 ≠ 0#7 then .error (.nonzeroD op)
  else if a.extractLsb' 0 2 = 3#2 then .error .pinButtonReserved
  else .ok (.pin (a.extractLsb' 0 2) (d.getLsbD 0))

/-- ADCDONE: v = `d`, `a` must be 0 (30_encoding.md R101). -/
def decodeAdcdone (op a d : Byte) : Except DecodeError Instr :=
  if a ≠ 0#8 then .error (.nonzeroA op) else .ok (.adcdone d)

/-- ALMSW: lvl = `d`[0], the other bits 0 (30_encoding.md R101). -/
def decodeAlmsw (op a d : Byte) : Except DecodeError Instr :=
  if a ≠ 0#8 then .error (.nonzeroA op)
  else if d.extractLsb' 1 7 ≠ 0#7 then .error (.nonzeroD op)
  else .ok (.almsw (d.getLsbD 0))

/-- HRD: addr = `a`, `d` must be 0 (30_encoding.md R101). -/
def decodeHrd (op a d : Byte) : Except DecodeError Instr :=
  if d ≠ 0#8 then .error (.nonzeroD op) else .ok (.hrd a)

/-- The decoding procedure on the three fields (30_encoding.md R103). -/
def decodeFields (op a d : Byte) : Except DecodeError Instr :=
  match op.toNat with
  | 0x00 => decodeBare .nop op a d
  | 0x01 => decodeBare .ftick op a d
  | 0x02 => decodeBare .stick op a d
  | 0x03 => decodePin op a d
  | 0x04 => decodeAdcdone op a d
  | 0x05 => decodeAlmsw op a d
  | 0x06 => .ok (.hwr a d)
  | 0x07 => decodeHrd op a d
  | 0x08 => decodeBare .reset op a d
  | _ => .error (.reservedOpcode op)

/-- Decoding of an event word, total on all 2^24 words (30_encoding.md R103). -/
def decodeWord (w : EventWord) : Except DecodeError Instr := decodeFields w.op w.a w.d

/-- Decoding from bytes, most significant byte of the word first (30_encoding.md R100, 20_memory.md
R76): the operation and the bytes after it. -/
def decodeBytes : List Byte → Except DecodeError (Instr × List Byte)
  | op :: a :: d :: rest =>
    match decodeFields op a d with
    | .ok i => .ok (i, rest)
    | .error e => .error e
  | _ => .error .truncated

/-- A level as the `d` field of PIN and ALMSW carries it (30_encoding.md R101). -/
def levelByte (lvl : Bool) : Byte := if lvl then 1#8 else 0#8

/-- The operation code of each operation (30_encoding.md R102). -/
def Instr.opcode : Instr → Byte
  | .nop => 0x00#8
  | .ftick => 0x01#8
  | .stick => 0x02#8
  | .pin _ _ => 0x03#8
  | .adcdone _ => 0x04#8
  | .almsw _ => 0x05#8
  | .hwr _ _ => 0x06#8
  | .hrd _ => 0x07#8
  | .reset => 0x08#8

/-- The `a` field of each operation (30_encoding.md R101). -/
def Instr.fieldA : Instr → Byte
  | .pin b _ => b.setWidth 8
  | .hwr addr _ => addr
  | .hrd addr => addr
  | .nop => 0#8
  | .ftick => 0#8
  | .stick => 0#8
  | .adcdone _ => 0#8
  | .almsw _ => 0#8
  | .reset => 0#8

/-- The `d` field of each operation (30_encoding.md R101). -/
def Instr.fieldD : Instr → Byte
  | .pin _ lvl => levelByte lvl
  | .adcdone v => v
  | .almsw lvl => levelByte lvl
  | .hwr _ data => data
  | .nop => 0#8
  | .ftick => 0#8
  | .stick => 0#8
  | .hrd _ => 0#8
  | .reset => 0#8

/-- The event word of an operation (30_encoding.md R100-R102). -/
def encode (i : Instr) : EventWord := EventWord.make i.opcode i.fieldA i.fieldD

/-- The three bytes of a word, most significant first (30_encoding.md R100, 20_memory.md R76). -/
def EventWord.bytes (w : EventWord) : List Byte := [w.op, w.a, w.d]

/-- The bytes of an operation's word. -/
def encodeBytes (i : Instr) : List Byte := (encode i).bytes

/-- The `mask` column of the operation's row (30_encoding.md R102, spec/opcode_table.json). -/
def Instr.rowMask : Instr → EventWord
  | .nop => 0xFFFFFF#24
  | .ftick => 0xFFFFFF#24
  | .stick => 0xFFFFFF#24
  | .pin _ _ => 0xFFFCFE#24
  | .adcdone _ => 0xFFFF00#24
  | .almsw _ => 0xFFFFFE#24
  | .hwr _ _ => 0xFF0000#24
  | .hrd _ => 0xFF00FF#24
  | .reset => 0xFFFFFF#24

/-- The `match` column of the operation's row (30_encoding.md R102, spec/opcode_table.json). -/
def Instr.rowMatch : Instr → EventWord
  | .nop => 0x000000#24
  | .ftick => 0x010000#24
  | .stick => 0x020000#24
  | .pin _ _ => 0x030000#24
  | .adcdone _ => 0x040000#24
  | .almsw _ => 0x050000#24
  | .hwr _ _ => 0x060000#24
  | .hrd _ => 0x070000#24
  | .reset => 0x080000#24

/-- The word whose bits, numbered as spec/opcode_table.json numbers them, are the low `nbits` bits of
`w`, bits above them 0. An event word is one word of 24 bits. -/
def tableWord (nbits w : Nat) : EventWord := BitVec.ofNat 24 (w % 2 ^ nbits)

/-- What the decoder reads from the bytes of a table word as they are stored; none where it refuses,
and none for a number that does not fit in 24 bits. -/
def decodeTableWord (nbits w : Nat) : Option Instr :=
  if w % 2 ^ nbits < 2 ^ 24 then
    match decodeBytes (tableWord nbits w).bytes with
    | .ok (i, _) => some i
    | .error _ => none
  else none

end Sys2Proof
end

