-- ==== Sys2Proof/Config.lean ====
section
/-! DEFINITION. The configuration of the block (00_scope.md R6) and the free part of its launch state
(20_memory.md R73, 10_state.md R36, 70_reset_and_hazards.md R333). Every operation takes a `Config`.
The machine of `exec` and `step` runs on `Config.hw`, which is uninterpreted: it is some legal
configuration, and nothing in Lean can tell which. -/

namespace Sys2Proof

/-- The three buttons (00_scope.md R11): Button A, B, C have index 0, 1, 2. -/
inductive ButtonId where
  | a
  | b
  | c
  deriving DecidableEq, Repr

/-- The parameters of 00_scope.md R6 that the source leaves open, and the launch values of what no
operation sets before it is read. -/
structure Config where
  /-- `N_DIGITS`, 1..16. -/
  nDigits : Nat
  /-- `MUX_DIVIDER`, 1..65535: fast ticks per firing. -/
  muxDivider : Nat
  /-- `SNOOZE_SECS`, 1..65535. -/
  snoozeSecs : Nat
  /-- `DEBOUNCE_TICKS`, 1..65535. -/
  debounceTicks : Nat
  /-- `GRACE_TICKS`, 1..65535. -/
  graceTicks : Nat
  /-- `BRIGHT_MIN`. -/
  brightMin : Nat
  /-- `BRIGHT_MAX`, at most 255. -/
  brightMax : Nat
  /-- `BRIGHT_STEP`, at least 1, a divisor of BRIGHT_MAX - BRIGHT_MIN. -/
  brightStep : Nat
  /-- `DIM_THRESHOLD`, 0..255. -/
  dimThreshold : Byte
  /-- `BUZZ_PERIOD`, 0..65535. -/
  buzzPeriod : Half
  /-- `IND_ALARM_BIT`, 0..7. -/
  indAlarmBit : Fin 8
  /-- `RENDER_TIME` (hour, minute, second, region, unk_phase): `N_DIGITS` bytes. -/
  renderTime : Byte → Byte → Byte → Byte → Bool → List Byte
  /-- What durable storage holds at launch at each address: any bytes (20_memory.md R73, U3). -/
  launchNv : Nat → Byte
  /-- The level of each button pin at launch: any level (10_state.md R36, U4). -/
  launchPin : ButtonId → Bool
  /-- The level of the alarm switch at launch: any level (10_state.md R36, U4). -/
  launchSwitch : Bool

/-- The constraints of 00_scope.md R6. What breaks them is no configuration (U7). -/
structure Config.Valid (c : Config) : Prop where
  nDigits_pos : 1 ≤ c.nDigits
  nDigits_le : c.nDigits ≤ 16
  muxDivider_pos : 1 ≤ c.muxDivider
  muxDivider_le : c.muxDivider ≤ 65535
  snoozeSecs_pos : 1 ≤ c.snoozeSecs
  snoozeSecs_le : c.snoozeSecs ≤ 65535
  debounceTicks_pos : 1 ≤ c.debounceTicks
  debounceTicks_le : c.debounceTicks ≤ 65535
  graceTicks_pos : 1 ≤ c.graceTicks
  graceTicks_le : c.graceTicks ≤ 65535
  brightMin_le : c.brightMin ≤ c.brightMax
  brightMax_le : c.brightMax ≤ 255
  brightStep_pos : 1 ≤ c.brightStep
  brightStep_dvd : (c.brightMax - c.brightMin) % c.brightStep = 0
  renderTime_length : ∀ h m s r u, (c.renderTime h m s r u).length = c.nDigits

/-- `ALM_DIVIDER`, fixed at 100 (00_scope.md R6, D9). -/
def almDivider : Nat := 100

/-- `REPEAT_BTN`, fixed at 2: Button C (00_scope.md R6, R11, D11). -/
def repeatBtn : ButtonId := .c

/-- The free choices from which a legal configuration is made: each field of any value gives a legal
one, and every legal configuration comes from some choice (`Config.ofChoices`). -/
structure Config.Choices where
  /-- `N_DIGITS` - 1. -/
  nDigitsLess1 : Fin 16
  /-- `MUX_DIVIDER` - 1. -/
  muxDividerLess1 : Fin 65535
  /-- `SNOOZE_SECS` - 1. -/
  snoozeSecsLess1 : Fin 65535
  /-- `DEBOUNCE_TICKS` - 1. -/
  debounceTicksLess1 : Fin 65535
  /-- `GRACE_TICKS` - 1. -/
  graceTicksLess1 : Fin 65535
  /-- `BRIGHT_MIN`. -/
  brightMin : Fin 256
  /-- `BRIGHT_STEP` - 1. -/
  brightStepLess1 : Nat
  /-- How many quanta `BRIGHT_MAX` lies above `BRIGHT_MIN`, cut down to what fits in a byte. -/
  brightQuanta : Nat
  /-- `DIM_THRESHOLD`. -/
  dimThreshold : Byte
  /-- `BUZZ_PERIOD`. -/
  buzzPeriod : Half
  /-- `IND_ALARM_BIT`. -/
  indAlarmBit : Fin 8
  /-- `RENDER_TIME`, byte by byte: the last argument is the position. -/
  renderByte : Byte → Byte → Byte → Byte → Bool → Nat → Byte
  /-- Durable storage at launch. -/
  launchNv : Nat → Byte
  /-- The button pins at launch. -/
  launchPin : ButtonId → Bool
  /-- The alarm switch at launch. -/
  launchSwitch : Bool
  deriving Inhabited

/-- The configuration a choice stands for (00_scope.md R6). -/
def Config.ofChoices (r : Config.Choices) : Config where
  nDigits := r.nDigitsLess1.val + 1
  muxDivider := r.muxDividerLess1.val + 1
  snoozeSecs := r.snoozeSecsLess1.val + 1
  debounceTicks := r.debounceTicksLess1.val + 1
  graceTicks := r.graceTicksLess1.val + 1
  brightMin := r.brightMin.val
  brightMax := r.brightMin.val +
    min r.brightQuanta ((255 - r.brightMin.val) / (r.brightStepLess1 + 1)) * (r.brightStepLess1 + 1)
  brightStep := r.brightStepLess1 + 1
  dimThreshold := r.dimThreshold
  buzzPeriod := r.buzzPeriod
  indAlarmBit := r.indAlarmBit
  renderTime h m s reg u := (List.range (r.nDigitsLess1.val + 1)).map (r.renderByte h m s reg u)
  launchNv := r.launchNv
  launchPin := r.launchPin
  launchSwitch := r.launchSwitch

/-- The choices this hardware made. UNINTERPRETED: no body, so nothing can be proved of its value
beyond what holds of every choice (DESIGN CHOICE; notes/assumptions/3.md, 4.md, 5.md). -/
opaque Config.hwChoices : Config.Choices

/-- The configuration of the machine that `exec` and `step` run: some legal one. -/
def Config.hw : Config := Config.ofChoices Config.hwChoices

end Sys2Proof
end

