-- ==== Sys2Proof/Machine/Legalise.lean ====
section
/-! DEFINITION. The legalisation functions (20_memory.md R88-R91), applied to every byte that enters a
ranged field, on load and on host write alike. -/

namespace Sys2Proof.Machine

/-- modN(v, M) = v mod M, for the zero-based fields (20_memory.md R88). -/
def modN (v : Byte) (m : Nat) : Byte := BitVec.ofNat 8 (v.toNat % m)

/-- wrap1(v, M) = ((v + M - 1) mod M) + 1 on natural numbers, for day and month (20_memory.md R89). -/
def wrap1 (v : Byte) (m : Nat) : Byte := BitVec.ofNat 8 ((v.toNat + m - 1) % m + 1)

/-- clampq(v): into `BRIGHT_MIN`..`BRIGHT_MAX`, rounded down to the quantum (20_memory.md R90). -/
def clampq (c : Config) (v : Byte) : Byte :=
  BitVec.ofNat 8 <|
    if v.toNat < c.brightMin then c.brightMin
    else if c.brightMax < v.toNat then c.brightMax
    else c.brightMin + (v.toNat - c.brightMin) / c.brightStep * c.brightStep

/-- flag1(v) = v mod 2, for `dimmer_en` (20_memory.md R91). -/
def flag1 (v : Byte) : Bool := v.toNat % 2 == 1

end Sys2Proof.Machine
end

