-- ==== Sys2Proof/Machine/Memory.lean ====
section
/-! DEFINITION. Durable storage (20_memory.md R70-R74): 256 bytes, each access one byte, immediate and
without failure. It is kept as the list of the addresses whose byte differs from what the storage
held at launch, addresses rising; what it held at launch is any 256 bytes (R73), so an unlisted
address reads as `Config.launchNv` (DESIGN CHOICE, safe; notes/assumptions/4.md). -/

namespace Sys2Proof.Machine

/-- Durable storage: (address, byte) pairs in the canonical form of `Memory.wf`. -/
abbrev Memory := List Host.Cell

/-- What an address that is not listed reads as: the byte durable storage held at launch. -/
def Memory.unlisted (c : Config) (a : Nat) : Byte := c.launchNv a

/-- The byte at an address (20_memory.md R72, `MemRead`). -/
def Memory.read (c : Config) : Memory → Nat → Byte
  | [], a => Memory.unlisted c a
  | (k, w) :: m, a => if k = a then w else Memory.read c m a

/-- The pair for address `a` in front of `m`, left out where `a` would read as `v` without it. -/
def Memory.cons (c : Config) (a : Nat) (v : Byte) (m : Memory) : Memory :=
  if v = Memory.unlisted c a then m else (a, v) :: m

/-- The storage with the byte at address `a` replaced by `v` (20_memory.md R72, `MemWrite`). -/
def Memory.write (c : Config) : Memory → Nat → Byte → Memory
  | [], a, v => Memory.cons c a v []
  | (k, w) :: m, a, v =>
    if a < k then Memory.cons c a v ((k, w) :: m)
    else if a = k then Memory.cons c a v m
    else (k, w) :: Memory.write c m a v

/-- Every address is at least `lo`, they rise strictly below 256, and no entry is what its address
would read as unlisted. -/
def Memory.wfFrom (c : Config) : Nat → Memory → Bool
  | _, [] => true
  | lo, (k, w) :: m =>
    decide (lo ≤ k) && decide (k < 256) && decide (w ≠ Memory.unlisted c k) &&
      Memory.wfFrom c (k + 1) m

/-- The canonical form: two storages that read alike everywhere are the same list. -/
def Memory.wf (c : Config) (m : Memory) : Bool := Memory.wfFrom c 0 m

end Sys2Proof.Machine
end

