-- ==== Sys2Proof/Machine/Blocks.lean ====
section
/-! DEFINITION. The registers of the five sub-blocks (00_scope.md R2; 10_state.md R20-R37), each with
what RESET makes of it (70_reset_and_hazards.md R330). -/

namespace Sys2Proof.Machine

/-- ClockTime and CalendarDate (10_state.md R20, R21); the year is 2000 + `year`. -/
structure Clock where
  hour : Byte
  minute : Byte
  second : Byte
  day : Byte
  month : Byte
  year : Byte
  deriving DecidableEq, Repr

/-- The time and date as RESET loads and legalises them (70_reset_and_hazards.md R330). -/
def Clock.load (c : Config) (nv : Memory) : Clock where
  hour := modN (Memory.read c nv 0x00) 24
  minute := modN (Memory.read c nv 0x01) 60
  second := modN (Memory.read c nv 0x02) 60
  day := wrap1 (Memory.read c nv 0x05) 31
  month := wrap1 (Memory.read c nv 0x06) 12
  year := modN (Memory.read c nv 0x07) 100

/-- AlarmSetting and AlarmRuntimeState (10_state.md R22, R23), the pulse divider (R32), the buzzer
output and the switch latch (R36, R37). -/
structure Alarm where
  /-- `alarm_h`. -/
  alarmH : Byte
  /-- `alarm_m`. -/
  alarmM : Byte
  /-- `alarm_en`. -/
  alarmEn : Bool
  ringing : Bool
  pulsePhase : Bool
  snooze : Half
  /-- `alm_div`, hidden. -/
  almDiv : Byte
  /-- `buzzer_on`, the tone generator's on/off level. -/
  buzzerOn : Bool
  /-- `almsw_lvl`, the last level seen of the alarm switch; true is enabled. -/
  almswLvl : Bool
  deriving DecidableEq, Repr

/-- The alarm sequencer after RESET, the switch latch being `sw` (70_reset_and_hazards.md R330). -/
def Alarm.load (c : Config) (nv : Memory) (sw : Bool) : Alarm where
  alarmH := modN (Memory.read c nv 0x03) 24
  alarmM := modN (Memory.read c nv 0x04) 60
  alarmEn := sw
  ringing := false
  pulsePhase := false
  snooze := 0#16
  almDiv := 0#8
  buzzerOn := false
  almswLvl := sw

/-- The five states of a button's debounce machine (10_state.md R25). Their encoding is not visible
(93_implementation_defined.md U9). -/
inductive BtnState where
  /-- No press in progress. -/
  | idle
  /-- A press edge was seen, the settle interval is running. -/
  | settle
  /-- Press confirmed, button not repeatable, waiting for release. -/
  | down
  /-- Press of the repeatable button confirmed, grace window running. -/
  | grace
  /-- Grace window expired with the button still down. -/
  | held
  deriving DecidableEq, Repr

/-- One button: ButtonState (10_state.md R24), the debounce machine (R25, R26), the pin latch (R36). -/
structure Button where
  /-- `pin_lvl[b]`: false is pressed. -/
  pinLvl : Bool
  st : BtnState
  cnt : Half
  rawPressed : Bool
  justPressed : Bool
  held : Bool
  deriving DecidableEq, Repr

/-- A button after RESET: its pin latch kept, all else cleared (70_reset_and_hazards.md R330). -/
def Button.cleared (pinLvl : Bool) : Button where
  pinLvl := pinLvl
  st := .idle
  cnt := 0#16
  rawPressed := false
  justPressed := false
  held := false

/-- The three buttons, indices 0, 1, 2 (00_scope.md R11). -/
structure Buttons where
  a : Button
  b : Button
  c : Button
  deriving DecidableEq, Repr

/-- Button `id`. -/
def Buttons.get (bs : Buttons) : ButtonId → Button
  | .a => bs.a
  | .b => bs.b
  | .c => bs.c

/-- The buttons with button `id` replaced. -/
def Buttons.set (bs : Buttons) (id : ButtonId) (x : Button) : Buttons :=
  match id with
  | .a => { bs with a := x }
  | .b => { bs with b := x }
  | .c => { bs with c := x }

/-- The buttons after RESET, the pin latches kept (70_reset_and_hazards.md R330). -/
def Buttons.cleared (pin : ButtonId → Bool) : Buttons where
  a := Button.cleared (pin .a)
  b := Button.cleared (pin .b)
  c := Button.cleared (pin .c)

/-- The display multiplexer: its two hidden registers (10_state.md R31) and the three latches of the
display sink's port (R37). -/
structure Mux where
  /-- `digit_idx`, hidden. -/
  digitIdx : Nibble
  /-- `mux_div`, hidden. -/
  muxDiv : Half
  /-- `disp_idx_o`. -/
  dispIdxO : Nibble
  /-- `disp_seg_o`. -/
  dispSegO : Byte
  /-- `disp_valid_o`. -/
  dispValidO : Bool
  deriving DecidableEq, Repr

/-- The multiplexer after RESET (70_reset_and_hazards.md R330). -/
def Mux.cleared : Mux where
  digitIdx := 0#4
  muxDiv := 0#16
  dispIdxO := 0#4
  dispSegO := 0#8
  dispValidO := false

/-- Brightness and the ambient dimmer (10_state.md R29, R30). -/
structure Dimmer where
  /-- `bright`, the stored level. -/
  bright : Byte
  /-- `bright_out`, the level driven to the display. -/
  brightOut : Byte
  /-- `dimmer_en`. -/
  dimmerEn : Bool
  /-- `adc_pending`, hidden. -/
  adcPending : Bool
  deriving DecidableEq, Repr

/-- The dimmer after RESET (70_reset_and_hazards.md R330). -/
def Dimmer.load (c : Config) (nv : Memory) : Dimmer where
  bright := clampq c (Memory.read c nv 0x08)
  brightOut := clampq c (Memory.read c nv 0x08)
  dimmerEn := flag1 (Memory.read c nv 0x0B)
  adcPending := false

/-- The ten display modes (10_state.md R28). The 4-bit register never holds 10..15. -/
inductive DisplayMode where
  | showTime
  | showSnooze
  | setAlarm
  | setTime
  | setDate
  | setBrightness
  | setDimmer
  | setVolume
  | setRegion
  /-- The mode named None. -/
  | noMode
  deriving DecidableEq, Repr

/-- The register value of a mode (10_state.md R28). -/
def DisplayMode.code : DisplayMode → Nibble
  | .showTime => 0#4
  | .showSnooze => 1#4
  | .setAlarm => 2#4
  | .setTime => 3#4
  | .setDate => 4#4
  | .setBrightness => 5#4
  | .setDimmer => 6#4
  | .setVolume => 7#4
  | .setRegion => 8#4
  | .noMode => 9#4

/-- The mode a byte names; none for 10..255 (10_state.md R28, R55). -/
def DisplayMode.ofByte (v : Byte) : Option DisplayMode :=
  match v.toNat with
  | 0 => some .showTime
  | 1 => some .showSnooze
  | 2 => some .setAlarm
  | 3 => some .setTime
  | 4 => some .setDate
  | 5 => some .setBrightness
  | 6 => some .setDimmer
  | 7 => some .setVolume
  | 8 => some .setRegion
  | 9 => some .noMode
  | _ => none

/-- DISPBUF after RESET: `N_DIGITS` bytes 0x00 (70_reset_and_hazards.md R330). -/
def clearedDispBuf (c : Config) : List Byte := List.replicate c.nDigits 0#8

end Sys2Proof.Machine
end

