-- ==== Sys2Proof/Machine/State.lean ====
section
/-! DEFINITION. The whole state of the machine as plain data (10_state.md R20-R37), what an operation
gives out (00_scope.md R10), and the state after reset (70_reset_and_hazards.md R330, R333). -/

namespace Sys2Proof.Machine

/-- The output events (00_scope.md R10). -/
inductive OutEvent where
  /-- `DISP(idx, seg)`: a pair handed to the display sink. -/
  | disp (idx : Nibble) (seg : Byte)
  /-- `CLICK`: the feedback click. -/
  | click
  /-- `BUZZ(on, period)`: the tone generator's flag and period. -/
  | buzz (on : Bool) (period : Half)
  /-- `ADCSTART`: a start-conversion request. -/
  | adcStart
  /-- `NVW(addr, data)`: a durable storage write. -/
  | nvw (addr data : Byte)
  /-- `BRIGHT(level)`: a new active brightness level. -/
  | bright (level : Byte)
  /-- `RD(data)`: the byte returned to the host by HRD. -/
  | rd (data : Byte)
  deriving DecidableEq, Repr

/-- The state. The last two fields are the model's own: the spec packages the outputs as a list beside
the state, and leaves the events to come to the environment. -/
structure State where
  /-- ClockTime and CalendarDate (10_state.md R20, R21). -/
  clock : Clock
  /-- The alarm sequencer (10_state.md R22, R23, R32, R36, R37). -/
  alarm : Alarm
  /-- The three buttons (10_state.md R24-R26, R36). -/
  buttons : Buttons
  /-- The multiplexer and its output latches (10_state.md R31, R37). -/
  mux : Mux
  /-- Brightness and the dimmer (10_state.md R29, R30). -/
  dimmer : Dimmer
  /-- `DISPBUF`, `N_DIGITS` bytes (10_state.md R27). -/
  dispBuf : List Byte
  /-- The display mode (10_state.md R28). -/
  mode : DisplayMode
  /-- The time may be inaccurate (10_state.md R34). -/
  timeUnknown : Bool
  /-- The inactivity countdown (10_state.md R33). -/
  inact : Byte
  /-- 10_state.md R35. -/
  volume : Byte
  /-- 10_state.md R35. -/
  region : Byte
  /-- Durable storage (20_memory.md R70-R74). -/
  nv : Memory
  /-- The output list of the last operation, in order (00_scope.md R10). The model's own field
  (notes/assumptions/2.md). -/
  outs : List OutEvent
  /-- The event words the environment has still to deliver, the next one first. The model's own field
  (notes/assumptions/1.md). -/
  inbox : List EventWord
  deriving DecidableEq, Repr

/-- Reasons to stop with a fault: none. No operation raises an exception, and there is no trap, halt or
error state (60_exceptions.md R300). Safe: a fault cannot occur in the model or in the block. -/
inductive Fault : Type
  deriving DecidableEq, Repr

/-- Reasons to give no next state. -/
inductive Refusal where
  /-- An arm of `exec` without a meaning. No arm raises it. Safe. -/
  | notModelled (mnemonic : String)
  /-- Raised by `step`: the next event word is reserved, so it stands for no event (30_encoding.md R104,
  93_implementation_defined.md U1). Safe: nothing can be proved of what follows. -/
  | reservedWord (e : DecodeError)
  /-- Raised by the meaning of PIN handed the index 3, which no event word decodes to (30_encoding.md
  R102, R104). Safe. -/
  | reservedButton
  deriving DecidableEq, Repr

/-- What RESET leaves under configuration `c` when it is applied to the launch state: durable storage
and input latches as they are at launch (70_reset_and_hazards.md R330, R333). -/
def State.resetOf (c : Config) : State where
  clock := Clock.load c []
  alarm := Alarm.load c [] c.launchSwitch
  buttons := Buttons.cleared c.launchPin
  mux := Mux.cleared
  dimmer := Dimmer.load c []
  dispBuf := clearedDispBuf c
  mode := .showTime
  timeUnknown := true
  inact := 0#8
  volume := Memory.read c [] 0x09
  region := Memory.read c [] 0x0A
  nv := []
  outs := []
  inbox := []

/-- The machine right after reset. -/
def State.reset : State := State.resetOf Config.hw

end Sys2Proof.Machine
end

