-- ==== Sys2Proof/Machine/Flags.lean ====
section
/-! DEFINITION. Bits, flags and phases: how flags are packed into a host register byte (10_state.md
R48-R54, R58, R60), how one bit of a byte is set (R27), and the two blink phases (42_rtc.md R186,
43_alarm.md R221). -/

namespace Sys2Proof.Machine

/-- A flag as bit 0 of a byte, bits 7:1 read 0 (10_state.md R48, R58, R60). -/
def flagByte (f : Bool) : Byte := if f then 1#8 else 0#8

/-- Three flags as bits 0, 1, 2 of a byte, bits 7:3 read 0 (10_state.md R49, R52-R54). -/
def flagByte3 (f0 f1 f2 : Bool) : Byte :=
  flagByte f0 ||| (flagByte f1 <<< 1) ||| (flagByte f2 <<< 2)

/-- `v` with bit `i` made equal to `f`, the other seven bits left (42_rtc.md R187, 43_alarm.md R221). -/
def putBit (v : Byte) (i : Fin 8) (f : Bool) : Byte :=
  if f then v ||| (1#8 <<< i.val) else v &&& ~~~(1#8 <<< i.val)

/-- unk_phase: true on odd seconds while the time is unknown (42_rtc.md R186). -/
def unkPhase (timeUnknown : Bool) (second : Byte) : Bool := timeUnknown && second.toNat % 2 == 1

/-- The snooze blink: the parity of the remaining count (43_alarm.md R221). -/
def snoozeBlink (snooze : Half) : Bool := snooze.toNat % 2 == 1

end Sys2Proof.Machine
end

