-- ==== Sys2Proof/Machine/Operands.lean ====
section
/-! DEFINITION. What the operands name: the button of PIN's index (30_encoding.md R101, R102) and the
register of a HOST address (10_state.md R40-R64). -/

namespace Sys2Proof.Machine

/-- The button of an index; none for the reserved value 3 (30_encoding.md R102). -/
def buttonOf (b : BitVec 2) : Option ButtonId :=
  match b.toNat with
  | 0 => some .a
  | 1 => some .b
  | 2 => some .c
  | _ => none

/-- The index of a button (00_scope.md R11). -/
def buttonIndex : ButtonId → BitVec 2
  | .a => 0#2
  | .b => 1#2
  | .c => 2#2

/-- The registers of HOST space (10_state.md R40-R63). -/
inductive HostReg where
  | timeS
  | timeM
  | timeH
  | dateD
  | dateM
  | dateY
  | alarmM
  | alarmH
  | almCtrl
  | almStat
  | snoozeL
  | snoozeH
  | btnRaw
  | btnJp
  | btnHeld
  | dispMode
  | bright
  | brightOut
  | dimCtrl
  | inact
  | status
  | volume
  | region
  | dispBuf (i : Nat)
  deriving DecidableEq, Repr

/-- The register at a HOST address; none where the address is unmapped (10_state.md R40-R64). -/
def hostReg (c : Config) (addr : Byte) : Option HostReg :=
  match addr.toNat with
  | 0x00 => some .timeS
  | 0x01 => some .timeM
  | 0x02 => some .timeH
  | 0x03 => some .dateD
  | 0x04 => some .dateM
  | 0x05 => some .dateY
  | 0x06 => some .alarmM
  | 0x07 => some .alarmH
  | 0x08 => some .almCtrl
  | 0x09 => some .almStat
  | 0x0A => some .snoozeL
  | 0x0B => some .snoozeH
  | 0x0C => some .btnRaw
  | 0x0D => some .btnJp
  | 0x0E => some .btnHeld
  | 0x0F => some .dispMode
  | 0x10 => some .bright
  | 0x11 => some .brightOut
  | 0x12 => some .dimCtrl
  | 0x13 => some .inact
  | 0x14 => some .status
  | 0x15 => some .volume
  | 0x16 => some .region
  | n => if 0x20 ≤ n ∧ n < 0x20 + c.nDigits then some (.dispBuf (n - 0x20)) else none

end Sys2Proof.Machine
end

