-- ==== Sys2Proof/Machine/Ops.lean ====
section
/-! DEFINITION. The named operations over state, storage and outputs that the nine meanings share
(00_scope.md section 5, R10; 20_memory.md R72; 45_host.md R272). Taking an exception and returning
from one are not among them: the block raises none (60_exceptions.md R300, R309, R310). -/

namespace Sys2Proof.Machine

/-- An operation begins with an empty output list (00_scope.md R10). -/
def startOp (s : State) : State := { s with outs := [] }

/-- `emit E`: appends to the operation's output list (00_scope.md section 5, R10). -/
def emit (e : OutEvent) (s : State) : State := { s with outs := s.outs ++ [e] }

/-- `MemRead(a, 1)` (20_memory.md R72). -/
def nvRead (c : Config) (s : State) (addr : Byte) : Byte := Memory.read c s.nv addr.toNat

/-- `MemWrite(a, 1, v)`: replaces the byte and lists the write (20_memory.md R72). -/
def nvWrite (c : Config) (addr v : Byte) (s : State) : State :=
  emit (.nvw addr v) { s with nv := Memory.write c s.nv addr.toNat v }

/-- StoreThrough(field, nv_addr, value): the field, then its NV home (45_host.md R272). -/
def storeThrough (c : Config) (setField : Byte → State → State) (addr v : Byte) (s : State) : State :=
  nvWrite c addr v (setField v s)

/-- Replaces the state of one button. -/
def setButton (id : ButtonId) (x : Button) (s : State) : State :=
  { s with buttons := s.buttons.set id x }

/-- Makes bit `IND_ALARM_BIT` of `DISPBUF[0]` equal to `f` (42_rtc.md R187, 43_alarm.md R221). -/
def setIndicator (c : Config) (f : Bool) (s : State) : State :=
  { s with dispBuf := s.dispBuf.modifyHead fun v => putBit v c.indAlarmBit f }

/-- Drives a brightness level, and reports it where it is new (44_dimmer.md R252, 45_host.md R280,
R281). -/
def driveBright (level : Byte) (s : State) : State :=
  if s.dimmer.brightOut = level then s
  else emit (.bright level) { s with dimmer := { s.dimmer with brightOut := level } }

end Sys2Proof.Machine
end

