-- ==== Sys2Proof/Machine/Alarm.lean ====
section
/-! DEFINITION. The alarm sequencer: its parts of FTICK and STICK, the procedures other operations
call, and the meaning of ALMSW (43_alarm.md R220-R233). -/

namespace Sys2Proof.Machine

/-- BuzzerOff: silent at once, reported only where the buzzer was on (43_alarm.md R228). -/
def buzzerOff (c : Config) (s : State) : State :=
  if s.alarm.pulsePhase then
    emit (.buzz false c.buzzPeriod)
      { s with alarm := { s.alarm with pulsePhase := false, buzzerOn := false } }
  else s

/-- SnoozeTrigger (43_alarm.md R227). -/
def snoozeTrigger (c : Config) (s : State) : State :=
  buzzerOff c
    { s with
      alarm := { s.alarm with snooze := BitVec.ofNat 16 c.snoozeSecs }
      mode := .showSnooze }

/-- AlarmDisable (43_alarm.md R232). -/
def alarmDisable (c : Config) (s : State) : State :=
  buzzerOff c
    { s with alarm := { s.alarm with alarmEn := false, ringing := false, snooze := 0#16 } }

/-- AlarmEnable (43_alarm.md R233). -/
def alarmEnable (s : State) : State := { s with alarm := { s.alarm with alarmEn := true } }

/-- AlarmCheck, on the time as the same STICK has updated it (43_alarm.md R220). -/
def alarmCheck (s : State) : State :=
  if s.alarm.alarmEn = true ∧ s.clock.hour = s.alarm.alarmH ∧ s.clock.minute = s.alarm.alarmM ∧
      s.clock.second = 0#8 then
    { s with alarm := { s.alarm with ringing := true, snooze := 0#16 } }
  else s

/-- SnoozeStep: the countdown, and the blink of the value after the decrement (43_alarm.md R221). -/
def snoozeStep (c : Config) (s : State) : State :=
  if s.alarm.snooze = 0#16 then s
  else
    setIndicator c (snoozeBlink (s.alarm.snooze - 1#16))
      { s with alarm := { s.alarm with snooze := s.alarm.snooze - 1#16 } }

/-- The expiry of the pulse divider (43_alarm.md R224): the phase flips, the buzzer follows it. -/
def pulseFlip (c : Config) (s : State) : State :=
  emit (.buzz (!s.alarm.pulsePhase) c.buzzPeriod)
    { s with
      alarm := { s.alarm with
        almDiv := 0#8
        pulsePhase := !s.alarm.pulsePhase
        buzzerOn := !s.alarm.pulsePhase } }

/-- AlmStep: the divider of 100 counts fast ticks while ringing and not snoozed, and holds its value
otherwise (43_alarm.md R224). -/
def almStep (c : Config) (s : State) : State :=
  if s.alarm.ringing = true ∧ s.alarm.snooze = 0#16 then
    if s.alarm.almDiv.toNat = almDivider - 1 then pulseFlip c s
    else { s with alarm := { s.alarm with almDiv := s.alarm.almDiv + 1#8 } }
  else s

/-- ALMSW lvl: a repeated level is no event (43_alarm.md R231). -/
def opAlmsw (c : Config) (lvl : Bool) (s : State) : State :=
  if lvl = s.alarm.almswLvl then startOp s
  else
    let s1 := startOp { s with alarm := { s.alarm with almswLvl := lvl } }
    if lvl then alarmEnable s1 else alarmDisable c s1

/-- The meaning of ALMSW (43_alarm.md R231). -/
def execAlmsw (lvl : Bool) (s : State) : Host.Outcome State Fault Refusal :=
  .next (opAlmsw Config.hw lvl s)

end Sys2Proof.Machine
end

