-- ==== Sys2Proof/Machine/Buttons.lean ====
section
/-! DEFINITION. The debounced input device: the meaning of PIN, and the button part of FTICK
(41_buttons.md R150-R158). -/

namespace Sys2Proof.Machine

/-- PressEdge(b): starts the settle interval; in every other state nothing (41_buttons.md R152). -/
def pressEdge (id : ButtonId) (s : State) : State :=
  let x := s.buttons.get id
  if x.st = .idle ∧ x.rawPressed = false then
    setButton id { x with st := .settle, cnt := 0#16 } s
  else s

/-- Tap(b): a release inside the grace window (41_buttons.md R158). -/
def tap (id : ButtonId) (s : State) : State :=
  setButton id
    { s.buttons.get id with rawPressed := false, justPressed := true, st := .idle } s

/-- ReleaseEdge(b) (41_buttons.md R153). -/
def releaseEdge (id : ButtonId) (s : State) : State :=
  let x := s.buttons.get id
  match x.st with
  | .idle => s
  | .settle => s
  | .down => setButton id { x with rawPressed := false, st := .idle } s
  | .held => setButton id { x with rawPressed := false, held := false, st := .idle } s
  | .grace => tap id s

/-- PIN b, lvl: a level equal to the stored one is no edge (41_buttons.md R150, R151). -/
def opPin (id : ButtonId) (lvl : Bool) (s : State) : State :=
  let x := s.buttons.get id
  if lvl = x.pinLvl then startOp s
  else
    let s1 := startOp (setButton id { x with pinLvl := lvl } s)
    if lvl then releaseEdge id s1 else pressEdge id s1

/-- The meaning of PIN (41_buttons.md R150). The index 3, which no event word decodes to, is refused
by name (30_encoding.md R104). -/
def execPin (b : BitVec 2) (lvl : Bool) (s : State) : Host.Outcome State Fault Refusal :=
  match buttonOf b with
  | some id => .next (opPin id lvl s)
  | none => .refused .reservedButton

/-- Confirm(b): the click, then the snooze diversion or the flags (41_buttons.md R155, R156). -/
def confirm (c : Config) (id : ButtonId) (s : State) : State :=
  let s1 := emit .click s
  let x := s1.buttons.get id
  if s1.alarm.ringing then snoozeTrigger c (setButton id { x with st := .idle } s1)
  else if id = repeatBtn then
    setButton id { x with rawPressed := true, st := .grace, cnt := 0#16 } s1
  else setButton id { x with rawPressed := true, st := .down, justPressed := true } s1

/-- BtnStep(b): the settle interval and the grace window, counted in fast ticks (41_buttons.md R154,
R157). -/
def btnStep (c : Config) (id : ButtonId) (s : State) : State :=
  let x := s.buttons.get id
  match x.st with
  | .settle =>
    if x.cnt.toNat + 1 = c.debounceTicks then
      if x.pinLvl then setButton id { x with st := .idle } s else confirm c id s
    else setButton id { x with cnt := x.cnt + 1#16 } s
  | .grace =>
    if x.cnt.toNat + 1 = c.graceTicks then setButton id { x with held := true, st := .held } s
    else setButton id { x with cnt := x.cnt + 1#16 } s
  | .idle => s
  | .down => s
  | .held => s

end Sys2Proof.Machine
end

