-- ==== Sys2Proof/Machine/Mux.lean ====
section
/-! DEFINITION. The display multiplexer, the first part of FTICK (40_mux.md R131-R135). -/

namespace Sys2Proof.Machine

/-- The byte of `DISPBUF` at a position (40_mux.md R132). A position beyond the buffer, which no run
reaches, reads 0x00 (notes/assumptions/7.md). -/
def dispByte (s : State) (i : Nat) : Byte := s.dispBuf.getD i 0#8

/-- The position after `i`, wrapping modulo the digit count (40_mux.md R132). -/
def nextDigit (c : Config) (i : Nibble) : Nibble :=
  if i.toNat = c.nDigits - 1 then 0#4 else i + 1#4

/-- MuxFire: pushes the pair of the current position, then advances (40_mux.md R132). -/
def muxFire (c : Config) (s : State) : State :=
  let seg := dispByte s s.mux.digitIdx.toNat
  emit (.disp s.mux.digitIdx seg)
    { s with
      mux := { s.mux with
        dispIdxO := s.mux.digitIdx
        dispSegO := seg
        dispValidO := true
        digitIdx := nextDigit c s.mux.digitIdx } }

/-- MuxStep: the divider, firing on the tick on which it wraps (40_mux.md R131). -/
def muxStep (c : Config) (s : State) : State :=
  if s.mux.muxDiv.toNat = c.muxDivider - 1 then
    muxFire c { s with mux := { s.mux with muxDiv := 0#16 } }
  else { s with mux := { s.mux with muxDiv := s.mux.muxDiv + 1#16 } }

end Sys2Proof.Machine
end

