-- ==== Sys2Proof/Machine/Ftick.lean ====
section
/-! DEFINITION. The meaning of FTICK, the fast tick (40_mux.md R130). -/

namespace Sys2Proof.Machine

/-- FTICK: MuxStep, AlmStep, BtnStep of the buttons 0, 1, 2, in this order (40_mux.md R130). -/
def opFtick (c : Config) (s : State) : State :=
  btnStep c .c (btnStep c .b (btnStep c .a (almStep c (muxStep c (startOp s)))))

/-- The meaning of FTICK (40_mux.md R130). -/
def execFtick (s : State) : Host.Outcome State Fault Refusal := .next (opFtick Config.hw s)

end Sys2Proof.Machine
end

