-- ==== Sys2Proof/Machine/HostPort.lean ====
section
/-! DEFINITION. The host port: the meanings of HRD, HWR and NOP (45_host.md R270-R292). -/

namespace Sys2Proof.Machine

/-- The byte of a mapped register, built from the current state (10_state.md R40-R63). -/
def regByte (s : State) : HostReg → Byte
  | .timeS => s.clock.second
  | .timeM => s.clock.minute
  | .timeH => s.clock.hour
  | .dateD => s.clock.day
  | .dateM => s.clock.month
  | .dateY => s.clock.year
  | .alarmM => s.alarm.alarmM
  | .alarmH => s.alarm.alarmH
  | .almCtrl => flagByte s.alarm.alarmEn
  | .almStat => flagByte3 s.alarm.ringing s.alarm.pulsePhase false
  | .snoozeL => s.alarm.snooze.extractLsb' 0 8
  | .snoozeH => s.alarm.snooze.extractLsb' 8 8
  | .btnRaw => flagByte3 s.buttons.a.rawPressed s.buttons.b.rawPressed s.buttons.c.rawPressed
  | .btnJp => flagByte3 s.buttons.a.justPressed s.buttons.b.justPressed s.buttons.c.justPressed
  | .btnHeld => flagByte3 s.buttons.a.held s.buttons.b.held s.buttons.c.held
  | .dispMode => s.mode.code.setWidth 8
  | .bright => s.dimmer.bright
  | .brightOut => s.dimmer.brightOut
  | .dimCtrl => flagByte s.dimmer.dimmerEn
  | .inact => s.inact
  | .status => flagByte s.timeUnknown
  | .volume => s.volume
  | .region => s.region
  | .dispBuf i => s.dispBuf.getD i 0#8

/-- `HR[addr]`: 0x00 for an unmapped address (45_host.md R270, 10_state.md R64). -/
def hostByte (c : Config) (s : State) (addr : Byte) : Byte :=
  match hostReg c addr with
  | some r => regByte s r
  | none => 0#8

/-- HRD addr: returns the byte and changes nothing (45_host.md R270). -/
def opHrd (c : Config) (addr : Byte) (s : State) : State :=
  emit (.rd (hostByte c s addr)) (startOp s)

/-- The meaning of HRD (45_host.md R270). -/
def execHrd (addr : Byte) (s : State) : Host.Outcome State Fault Refusal :=
  .next (opHrd Config.hw addr s)

/-- A write to ALM_CTRL: bit 0 enables or disables the alarm (45_host.md R276). -/
def writeAlmCtrl (c : Config) (data : Byte) (s : State) : State :=
  if data.getLsbD 0 then alarmEnable s else alarmDisable c s

/-- A just-pressed flag after a write to BTN_JP whose bit for it is `clear`. -/
def clearJp (x : Button) (clear : Bool) : Button :=
  if clear then { x with justPressed := false } else x

/-- A write to BTN_JP: write 1 to clear (45_host.md R277). -/
def writeBtnJp (data : Byte) (s : State) : State :=
  { s with
    buttons := {
      a := clearJp s.buttons.a (data.getLsbD 0)
      b := clearJp s.buttons.b (data.getLsbD 1)
      c := clearJp s.buttons.c (data.getLsbD 2) } }

/-- A write to DISP_MODE: 10..255 change nothing (45_host.md R279). -/
def writeDispMode (data : Byte) (s : State) : State :=
  match DisplayMode.ofByte data with
  | some m => { s with mode := m }
  | none => s

/-- A write to BRIGHT (45_host.md R280). -/
def writeBright (c : Config) (data : Byte) (s : State) : State :=
  driveBright (clampq c data)
    (storeThrough c (fun v s => { s with dimmer := { s.dimmer with bright := v } }) 0x08#8
      (clampq c data) s)

/-- A write to DIM_CTRL (45_host.md R281). -/
def writeDimCtrl (c : Config) (data : Byte) (s : State) : State :=
  let e := data.getLsbD 0
  let s1 := storeThrough c (fun _ s => { s with dimmer := { s.dimmer with dimmerEn := e } }) 0x0B#8
    (flagByte e) s
  if e then s1 else driveBright s1.dimmer.bright s1

/-- The effect of a write on each register (45_host.md R271, R273-R286). -/
def writeReg (c : Config) (r : HostReg) (data : Byte) (s : State) : State :=
  match r with
  | .timeS => storeThrough c (fun v s => { s with clock := { s.clock with second := v } }) 0x02#8
      (modN data 60) s
  | .timeM => storeThrough c (fun v s => { s with clock := { s.clock with minute := v } }) 0x01#8
      (modN data 60) s
  | .timeH => storeThrough c (fun v s => { s with clock := { s.clock with hour := v } }) 0x00#8
      (modN data 24) s
  | .dateD => storeThrough c (fun v s => { s with clock := { s.clock with day := v } }) 0x05#8
      (wrap1 data 31) s
  | .dateM => storeThrough c (fun v s => { s with clock := { s.clock with month := v } }) 0x06#8
      (wrap1 data 12) s
  | .dateY => storeThrough c (fun v s => { s with clock := { s.clock with year := v } }) 0x07#8
      (modN data 100) s
  | .alarmM => storeThrough c (fun v s => { s with alarm := { s.alarm with alarmM := v } }) 0x04#8
      (modN data 60) s
  | .alarmH => storeThrough c (fun v s => { s with alarm := { s.alarm with alarmH := v } }) 0x03#8
      (modN data 24) s
  | .almCtrl => writeAlmCtrl c data s
  | .btnJp => writeBtnJp data s
  | .dispMode => writeDispMode data s
  | .bright => writeBright c data s
  | .dimCtrl => writeDimCtrl c data s
  | .inact => { s with inact := data }
  | .status => { s with timeUnknown := data.getLsbD 0 }
  | .volume => storeThrough c (fun v s => { s with volume := v }) 0x09#8 data s
  | .region => storeThrough c (fun v s => { s with region := v }) 0x0A#8 data s
  | .dispBuf i => { s with dispBuf := s.dispBuf.set i data }
  | .almStat => s
  | .snoozeL => s
  | .snoozeH => s
  | .btnRaw => s
  | .btnHeld => s
  | .brightOut => s

/-- HWR addr, data: an unmapped address changes nothing (45_host.md R271, R286). -/
def opHwr (c : Config) (addr data : Byte) (s : State) : State :=
  match hostReg c addr with
  | some r => writeReg c r data (startOp s)
  | none => startOp s

/-- The meaning of HWR (45_host.md R271). -/
def execHwr (addr data : Byte) (s : State) : Host.Outcome State Fault Refusal :=
  .next (opHwr Config.hw addr data s)

/-- The meaning of NOP: the state is unchanged and the output list is empty (45_host.md R292). -/
def execNop (s : State) : Host.Outcome State Fault Refusal := .next (startOp s)

end Sys2Proof.Machine
end

