-- ==== Sys2Proof/Machine/Reset.lean ====
section
/-! DEFINITION. The meaning of RESET (70_reset_and_hazards.md R330-R334). -/

namespace Sys2Proof.Machine

/-- The NV addresses RESET reads, in the order of its pseudocode: twelve `MemRead`s
(70_reset_and_hazards.md R330). -/
def resetAddrs : List Byte :=
  [0x00#8, 0x01#8, 0x02#8, 0x03#8, 0x04#8, 0x05#8, 0x06#8, 0x07#8, 0x08#8, 0x09#8, 0x0A#8, 0x0B#8]

/-- RESET: loaded from durable storage and legalised, derived from the input latches, or cleared; the
latches and durable storage unchanged; the output list empty (70_reset_and_hazards.md R330). -/
def opReset (c : Config) (s : State) : State where
  clock := Clock.load c s.nv
  alarm := Alarm.load c s.nv s.alarm.almswLvl
  buttons := Buttons.cleared fun id => (s.buttons.get id).pinLvl
  mux := Mux.cleared
  dimmer := Dimmer.load c s.nv
  dispBuf := clearedDispBuf c
  mode := .showTime
  timeUnknown := true
  inact := 0#8
  volume := nvRead c s 0x09#8
  region := nvRead c s 0x0A#8
  nv := s.nv
  outs := []
  inbox := s.inbox

/-- The meaning of RESET (70_reset_and_hazards.md R330). -/
def execReset (s : State) : Host.Outcome State Fault Refusal := .next (opReset Config.hw s)

end Sys2Proof.Machine
end

