-- ==== Sys2Proof/Machine/Dimmer.lean ====
section
/-! DEFINITION. The ambient dimmer: its part of STICK and the meaning of ADCDONE (44_dimmer.md
R250-R252). -/

namespace Sys2Proof.Machine

/-- DimRequest, pending or not, in every mode (44_dimmer.md R250). -/
def dimRequest (s : State) : State :=
  if s.dimmer.dimmerEn then
    { emit .adcStart s with dimmer := { s.dimmer with adcPending := true } }
  else s

/-- The level a sample asks for: the safety minimum in a bright room, else the stored level
(44_dimmer.md R252). -/
def dimLevel (c : Config) (v bright : Byte) : Byte :=
  if v < c.dimThreshold then BitVec.ofNat 8 c.brightMin else bright

/-- DimApply(v), guarded by the values `dimmer_en` and `mode` have now (44_dimmer.md R252). -/
def dimApply (c : Config) (v : Byte) (s : State) : State :=
  if s.dimmer.dimmerEn = true ∧ s.mode ≠ .setBrightness then
    driveBright (dimLevel c v s.dimmer.bright) s
  else s

/-- ADCDONE v: accepted at any time (44_dimmer.md R251). -/
def opAdcdone (c : Config) (v : Byte) (s : State) : State :=
  dimApply c v (startOp { s with dimmer := { s.dimmer with adcPending := false } })

/-- The meaning of ADCDONE (44_dimmer.md R251). -/
def execAdcdone (v : Byte) (s : State) : Host.Outcome State Fault Refusal :=
  .next (opAdcdone Config.hw v s)

end Sys2Proof.Machine
end

