-- ==== Sys2Proof/Machine/Rtc.lean ====
section
/-! DEFINITION. The real-time clock and the meaning of STICK, the slow tick (42_rtc.md R180-R188). -/

namespace Sys2Proof.Machine

/-- The leap-year test on a full year (42_rtc.md R183). -/
def leapYear (y : Nat) : Bool := (y % 4 == 0 && y % 100 != 0) || y % 400 == 0

/-- leap(year): the test applied to 2000 + `year` (42_rtc.md R183). -/
def leap (year : Byte) : Bool := leapYear (2000 + year.toNat)

/-- April, June, September and November (42_rtc.md R182, 93_implementation_defined.md G1). -/
def thirtyDayMonth (month : Byte) : Bool :=
  month == 4#8 || month == 6#8 || month == 9#8 || month == 11#8

/-- The second, and its carry into the minute (42_rtc.md R181). -/
def carrySecond (t : Clock) : Clock :=
  if 60#8 ≤ t.second + 1#8 then { t with second := 0#8, minute := t.minute + 1#8 }
  else { t with second := t.second + 1#8 }

/-- The carry of the minute into the hour (42_rtc.md R181). -/
def carryMinute (t : Clock) : Clock :=
  if 60#8 ≤ t.minute then { t with minute := 0#8, hour := t.hour + 1#8 } else t

/-- The carry of the hour into the day (42_rtc.md R181). -/
def carryHour (t : Clock) : Clock :=
  if 24#8 ≤ t.hour then { t with hour := 0#8, day := t.day + 1#8 } else t

/-- What a date guard that fires does (42_rtc.md R182). -/
def rollDay (t : Clock) : Clock := { t with day := 1#8, month := t.month + 1#8 }

/-- Guard one (42_rtc.md R182). -/
def guardLongMonth (t : Clock) : Clock := if 31#8 < t.day then rollDay t else t

/-- Guard two (42_rtc.md R182). -/
def guardThirtyDayMonth (t : Clock) : Clock :=
  if t.day = 31#8 ∧ thirtyDayMonth t.month = true then rollDay t else t

/-- Guard three (42_rtc.md R182). -/
def guardFebruary (t : Clock) : Clock :=
  if t.day = 30#8 ∧ t.month = 2#8 then rollDay t else t

/-- Guard four (42_rtc.md R182). -/
def guardShortFebruary (t : Clock) : Clock :=
  if t.day = 29#8 ∧ t.month = 2#8 ∧ leap t.year = false then rollDay t else t

/-- DateGuards: the four guards one after the other, not chained by else (42_rtc.md R182). -/
def dateGuards (t : Clock) : Clock :=
  guardShortFebruary (guardFebruary (guardThirtyDayMonth (guardLongMonth t)))

/-- MonthYear, the last two carries (42_rtc.md R184). -/
def monthYear (t : Clock) : Clock :=
  let t1 := if 12#8 < t.month then { t with month := 1#8, year := t.year + 1#8 } else t
  if 99#8 < t1.year then { t1 with year := 0#8 } else t1

/-- TimeAdvance: one second later (42_rtc.md R181, R182, R184). -/
def timeAdvance (t : Clock) : Clock :=
  monthYear (dateGuards (carryHour (carryMinute (carrySecond t))))

/-- Writes a field to its NV home where it differs from what it was (42_rtc.md R185). -/
def nvWriteChanged (c : Config) (addr old new : Byte) (s : State) : State :=
  if new = old then s else nvWrite c addr new s

/-- NvWriteThrough, `old` being the time and date before the tick (42_rtc.md R185). -/
def nvWriteThrough (c : Config) (old : Clock) (s : State) : State :=
  let t := s.clock
  if t.hour = old.hour ∧ t.day = old.day ∧ t.month = old.month ∧ t.year = old.year then s
  else
    nvWriteChanged c 0x07#8 old.year t.year <|
    nvWriteChanged c 0x06#8 old.month t.month <|
    nvWriteChanged c 0x05#8 old.day t.day <|
    nvWriteChanged c 0x00#8 old.hour t.hour <|
    nvWriteChanged c 0x01#8 old.minute t.minute <|
    nvWriteChanged c 0x02#8 old.second t.second s

/-- Render, with Indicator after it, in ShowTime only (42_rtc.md R186, R187). -/
def render (c : Config) (s : State) : State :=
  if s.mode = .showTime then
    setIndicator c s.alarm.alarmEn
      { s with
        dispBuf := c.renderTime s.clock.hour s.clock.minute s.clock.second s.region
          (unkPhase s.timeUnknown s.clock.second) }
  else s

/-- InactStep: counts down while nonzero, in every mode (42_rtc.md R188). -/
def inactStep (s : State) : State :=
  if s.inact = 0#8 then s else { s with inact := s.inact - 1#8 }

/-- STICK: its seven steps in order (42_rtc.md R180). -/
def opStick (c : Config) (s : State) : State :=
  let s1 := nvWriteThrough c s.clock (startOp { s with clock := timeAdvance s.clock })
  dimRequest (inactStep (snoozeStep c (alarmCheck (render c s1))))

/-- The meaning of STICK (42_rtc.md R180). -/
def execStick (s : State) : Host.Outcome State Fault Refusal := .next (opStick Config.hw s)

end Sys2Proof.Machine
end

