-- ==== Sys2Proof/Machine/Dispatch.lean ====
section
/-! DEFINITION. Each operation's meaning, one arm per constructor (30_encoding.md R102). -/

namespace Sys2Proof.Machine

def exec (i : Instr) (s : State) : Host.Outcome State Fault Refusal :=
  match i with
  | .nop => Sys2Proof.Machine.execNop s
  | .ftick => Sys2Proof.Machine.execFtick s
  | .stick => Sys2Proof.Machine.execStick s
  | .pin b lvl => Sys2Proof.Machine.execPin b lvl s
  | .adcdone v => Sys2Proof.Machine.execAdcdone v s
  | .almsw lvl => Sys2Proof.Machine.execAlmsw lvl s
  | .hwr addr data => Sys2Proof.Machine.execHwr addr data s
  | .hrd addr => Sys2Proof.Machine.execHrd addr s
  | .reset => Sys2Proof.Machine.execReset s

end Sys2Proof.Machine
end

