-- ==== Sys2Proof/Machine/Fetch.lean ====
section
/-! DEFINITION. Where the next event word comes from. The block fetches no program (10_state.md R38,
20_memory.md R85): the environment delivers events in one total order (00_scope.md R5), which the
model holds as the list `inbox` (notes/assumptions/1.md). -/

namespace Sys2Proof.Machine

/-- The next event word, and the state with that word taken out of the environment's list. -/
def nextEvent (s : State) : Option (EventWord × State) :=
  match s.inbox with
  | [] => none
  | w :: rest => some (w, { s with inbox := rest })

/-- A moment at which no port is active is what NOP stands for (45_host.md R292). -/
def idleStep (s : State) : Host.Outcome State Fault Refusal := .next (startOp s)

/-- `s` with the word `w` as the very next event. -/
def deliverFirst (w : EventWord) (s : State) : State := { s with inbox := w :: s.inbox }

/-- `s` with the words `ws` delivered after all events already on their way. -/
def deliver (ws : List EventWord) (s : State) : State := { s with inbox := s.inbox ++ ws }

end Sys2Proof.Machine
end

