-- ==== Sys2Proof/Machine/Step.lean ====
section
/-! DEFINITION. One step: the next event, processed as one atomic operation (00_scope.md R5). -/

namespace Sys2Proof.Machine

/-- One step. A reserved word is refused by name (30_encoding.md R104); with no event to come the step
is that of NOP (45_host.md R292). -/
def step (s : State) : Host.Outcome State Fault Refusal :=
  match nextEvent s with
  | none => idleStep s
  | some (w, s1) =>
    match decodeWord w with
    | .ok i => exec i s1
    | .error e => .refused (.reservedWord e)

/-- `s` with the word of the opcode table's bits placed as the very next event. -/
def State.withFetchWord (s : State) (nbits w : Nat) : State := deliverFirst (tableWord nbits w) s

end Sys2Proof.Machine
end

