-- ==== Sys2Proof/Machine/Ports.lean ====
section
/-! DEFINITION. The physical interface (30_encoding.md R108) and the order of coinciding events
(60_exceptions.md R308): what one instant of the input ports delivers, and what the output ports and the
storage port show of an operation. -/

namespace Sys2Proof.Machine

/-- The level inputs: `btn_n[2:0]`, active low, and `alm_sw` (30_encoding.md R108). -/
structure Wires where
  btnA : Bool
  btnB : Bool
  btnC : Bool
  almSw : Bool
  deriving DecidableEq, Repr

/-- The input ports at one instant (30_encoding.md R108). -/
structure InPorts where
  /-- `rst` strobe. -/
  rst : Bool
  /-- `ftick` strobe. -/
  ftick : Bool
  /-- `stick` strobe. -/
  stick : Bool
  /-- The level inputs as they now are. -/
  wires : Wires
  /-- `adc_done` strobe. -/
  adcDone : Bool
  /-- `adc_data`. -/
  adcData : Byte
  /-- `h_we`. -/
  hWe : Bool
  /-- `h_re`. -/
  hRe : Bool
  /-- `h_addr`. -/
  hAddr : Byte
  /-- `h_wdata`. -/
  hWdata : Byte
  deriving DecidableEq, Repr

/-- The event of a strobe, where the strobe is active (30_encoding.md R108). -/
def strobe (active : Bool) (i : Instr) : List Instr := if active then [i] else []

/-- The events of one instant, `before` being the levels the inputs had, in the order
RESET > FTICK > STICK > PIN 0 > PIN 1 > PIN 2 > ADCDONE > ALMSW > HWR > HRD (60_exceptions.md R308; a
level input gives an event where it has changed, 30_encoding.md R108; notes/assumptions/10.md). -/
def InPorts.events (before : Wires) (p : InPorts) : List Instr :=
  strobe p.rst .reset ++
  strobe p.ftick .ftick ++
  strobe p.stick .stick ++
  strobe (p.wires.btnA != before.btnA) (.pin 0#2 p.wires.btnA) ++
  strobe (p.wires.btnB != before.btnB) (.pin 1#2 p.wires.btnB) ++
  strobe (p.wires.btnC != before.btnC) (.pin 2#2 p.wires.btnC) ++
  strobe p.adcDone (.adcdone p.adcData) ++
  strobe (p.wires.almSw != before.almSw) (.almsw p.wires.almSw) ++
  strobe p.hWe (.hwr p.hAddr p.hWdata) ++
  strobe p.hRe (.hrd p.hAddr)

/-- The state with the events of one instant delivered after those already on their way. -/
def deliverInstant (before : Wires) (p : InPorts) (s : State) : State :=
  deliver ((p.events before).map encode) s

/-- The rank of an event's source among coinciding events, lowest first served (60_exceptions.md
R308). -/
def portRank : Instr → Nat
  | .reset => 0
  | .ftick => 1
  | .stick => 2
  | .pin b _ => 3 + b.toNat
  | .adcdone _ => 7
  | .almsw _ => 8
  | .hwr _ _ => 9
  | .hrd _ => 10
  | .nop => 11

/-- One access on the storage port (30_encoding.md R108). -/
inductive NvAccess where
  /-- `nv_re` with `nv_addr`, and the `nv_rdata` the storage answers: a `MemRead`. -/
  | read (addr rdata : Byte)
  /-- `nv_we` with `nv_addr` and `nv_wdata`: a `MemWrite`. -/
  | write (addr wdata : Byte)
  deriving DecidableEq, Repr

/-- What the output ports and the storage port show of one operation (30_encoding.md R108): the levels
it leaves, and the strobes it gives, each with its data (notes/assumptions/11.md). -/
structure OutPorts where
  /-- `h_rdata`, in an operation that returns a byte. -/
  hRdata : Option Byte
  /-- `disp_valid`, the strobe of a firing. -/
  dispValid : Bool
  /-- `disp_idx`. -/
  dispIdx : Nibble
  /-- `disp_seg`. -/
  dispSeg : Byte
  /-- `buzz_on`, level. -/
  buzzOn : Bool
  /-- `buzz_period`. -/
  buzzPeriod : Half
  /-- The `buzz_upd` strobes in order, each with the flag and the period it hands over. -/
  buzzUpds : List (Bool × Half)
  /-- `click` strobes. -/
  clicks : Nat
  /-- `adc_start` strobe. -/
  adcStart : Bool
  /-- `bright`, level. -/
  bright : Byte
  /-- The accesses on `nv_re`, `nv_we`, `nv_addr`, `nv_wdata`, `nv_rdata`, in order. -/
  nvAccesses : List NvAccess
  deriving DecidableEq, Repr

/-- The byte an output event returns to the host. -/
def OutEvent.rdByte : OutEvent → Option Byte
  | .rd v => some v
  | _ => none

/-- The access on the storage port an output event reports: `NVW` is `nv_we` (30_encoding.md R108). -/
def OutEvent.nvAccess : OutEvent → Option NvAccess
  | .nvw a v => some (.write a v)
  | _ => none

/-- The flag and the period an output event hands to the tone generator. -/
def OutEvent.buzzUpd : OutEvent → Option (Bool × Half)
  | .buzz on period => some (on, period)
  | _ => none

/-- The event is a DISP. -/
def OutEvent.isDisp : OutEvent → Bool
  | .disp _ _ => true
  | _ => false

/-- The NV addresses an operation reads, in order: RESET alone has `MemRead`s (20_memory.md R72,
70_reset_and_hazards.md R330). -/
def nvReadAddrs : Instr → List Byte
  | .nop => []
  | .ftick => []
  | .stick => []
  | .pin _ _ => []
  | .adcdone _ => []
  | .almsw _ => []
  | .hwr _ _ => []
  | .hrd _ => []
  | .reset => resetAddrs

/-- What the ports show of the operation `i` that took `s` to `t` (30_encoding.md R108). The reads are
answered from the storage the operation finds; no operation both reads and writes storage. -/
def outPorts (c : Config) (i : Instr) (s t : State) : OutPorts where
  hRdata := t.outs.findSome? OutEvent.rdByte
  dispValid := t.outs.any OutEvent.isDisp
  dispIdx := t.mux.dispIdxO
  dispSeg := t.mux.dispSegO
  buzzOn := t.alarm.buzzerOn
  buzzPeriod := c.buzzPeriod
  buzzUpds := t.outs.filterMap OutEvent.buzzUpd
  clicks := t.outs.count .click
  adcStart := t.outs.contains .adcStart
  bright := t.dimmer.brightOut
  nvAccesses := (nvReadAddrs i).map (fun a => .read a (nvRead c s a)) ++
    t.outs.filterMap OutEvent.nvAccess

end Sys2Proof.Machine
end

