-- ==== Sys2Proof/Machine/Trace.lean ====
section
/-! DEFINITION. The trace syntax and its pseudo-operations (30_encoding.md R106, R107): what a line of
a trace stands for. The operations' meanings do not depend on it. -/

namespace Sys2Proof.Machine

/-- A line of a trace: an operation, or a pseudo-operation (30_encoding.md R106, R107). -/
inductive TraceLine where
  | op (i : Instr)
  /-- `X * n`. -/
  | times (i : Instr) (n : Nat)
  /-- `PRESS b`. -/
  | press (b : BitVec 2)
  /-- `RELEASE b`. -/
  | release (b : BitVec 2)
  /-- `JPCLR m`. -/
  | jpclr (m : Byte)
  /-- `SETMODE name`. -/
  | setmode (m : DisplayMode)
  /-- `ARM n`. -/
  | arm (n : Byte)
  deriving DecidableEq, Repr

/-- The operations a line stands for (30_encoding.md R107). -/
def TraceLine.expand : TraceLine → List Instr
  | .op i => [i]
  | .times i n => List.replicate n i
  | .press b => [.pin b false]
  | .release b => [.pin b true]
  | .jpclr m => [.hwr 0x0D#8 m]
  | .setmode m => [.hwr 0x0F#8 (m.code.setWidth 8)]
  | .arm n => [.hwr 0x13#8 n]

/-- The names that may stand for a HOST address (30_encoding.md R106, 10_state.md R40-R62). -/
def registerNames : List (List Char × Nat) :=
  [ (['T', 'I', 'M', 'E', '_', 'S'], 0x00), (['T', 'I', 'M', 'E', '_', 'M'], 0x01),
    (['T', 'I', 'M', 'E', '_', 'H'], 0x02), (['D', 'A', 'T', 'E', '_', 'D'], 0x03),
    (['D', 'A', 'T', 'E', '_', 'M'], 0x04), (['D', 'A', 'T', 'E', '_', 'Y'], 0x05),
    (['A', 'L', 'A', 'R', 'M', '_', 'M'], 0x06), (['A', 'L', 'A', 'R', 'M', '_', 'H'], 0x07),
    (['A', 'L', 'M', '_', 'C', 'T', 'R', 'L'], 0x08),
    (['A', 'L', 'M', '_', 'S', 'T', 'A', 'T'], 0x09),
    (['S', 'N', 'O', 'O', 'Z', 'E', '_', 'L'], 0x0A),
    (['S', 'N', 'O', 'O', 'Z', 'E', '_', 'H'], 0x0B),
    (['B', 'T', 'N', '_', 'R', 'A', 'W'], 0x0C), (['B', 'T', 'N', '_', 'J', 'P'], 0x0D),
    (['B', 'T', 'N', '_', 'H', 'E', 'L', 'D'], 0x0E),
    (['D', 'I', 'S', 'P', '_', 'M', 'O', 'D', 'E'], 0x0F),
    (['B', 'R', 'I', 'G', 'H', 'T'], 0x10),
    (['B', 'R', 'I', 'G', 'H', 'T', '_', 'O', 'U', 'T'], 0x11),
    (['D', 'I', 'M', '_', 'C', 'T', 'R', 'L'], 0x12), (['I', 'N', 'A', 'C', 'T'], 0x13),
    (['S', 'T', 'A', 'T', 'U', 'S'], 0x14), (['V', 'O', 'L', 'U', 'M', 'E'], 0x15),
    (['R', 'E', 'G', 'I', 'O', 'N'], 0x16) ]

/-- The names of the display modes (30_encoding.md R106, 10_state.md R28). -/
def modeNames : List (List Char × Nat) :=
  [ (['S', 'h', 'o', 'w', 'T', 'i', 'm', 'e'], 0),
    (['S', 'h', 'o', 'w', 'S', 'n', 'o', 'o', 'z', 'e'], 1),
    (['S', 'e', 't', 'A', 'l', 'a', 'r', 'm'], 2), (['S', 'e', 't', 'T', 'i', 'm', 'e'], 3),
    (['S', 'e', 't', 'D', 'a', 't', 'e'], 4),
    (['S', 'e', 't', 'B', 'r', 'i', 'g', 'h', 't', 'n', 'e', 's', 's'], 5),
    (['S', 'e', 't', 'D', 'i', 'm', 'm', 'e', 'r'], 6),
    (['S', 'e', 't', 'V', 'o', 'l', 'u', 'm', 'e'], 7),
    (['S', 'e', 't', 'R', 'e', 'g', 'i', 'o', 'n'], 8), (['N', 'o', 'n', 'e'], 9) ]

/-- A decimal digit's value. -/
def decDigit (ch : Char) : Option Nat :=
  if 48 ≤ ch.toNat ∧ ch.toNat ≤ 57 then some (ch.toNat - 48) else none

/-- A hexadecimal digit's value. -/
def hexDigit (ch : Char) : Option Nat :=
  if 48 ≤ ch.toNat ∧ ch.toNat ≤ 57 then some (ch.toNat - 48)
  else if 65 ≤ ch.toNat ∧ ch.toNat ≤ 70 then some (ch.toNat - 55)
  else if 97 ≤ ch.toNat ∧ ch.toNat ≤ 102 then some (ch.toNat - 87)
  else none

/-- The digits' value in base `base` after `acc`. -/
def digitsValue (base : Nat) (digit : Char → Option Nat) (acc : Nat) : List Char → Option Nat
  | [] => some acc
  | ch :: rest =>
    match digit ch with
    | some d => digitsValue base digit (acc * base + d) rest
    | none => none

/-- A decimal number, or a hexadecimal one with the sign 0x before it (30_encoding.md R106). -/
def readNumber : List Char → Option Nat
  | [] => none
  | '0' :: 'x' :: [] => none
  | '0' :: 'x' :: ds => digitsValue 16 hexDigit 0 ds
  | ds => digitsValue 10 decDigit 0 ds

/-- `DISPBUF[i]`, which stands for 0x20 + i (30_encoding.md R106). -/
def readDispBuf : List Char → Option Nat
  | 'D' :: 'I' :: 'S' :: 'P' :: 'B' :: 'U' :: 'F' :: '[' :: rest =>
    match rest.getLast? with
    | some ']' => (readNumber rest.dropLast).map (0x20 + ·)
    | _ => none
  | _ => none

/-- An operand: a number, a register name, a buffer position or a mode name (30_encoding.md R106). -/
def readOperand (w : List Char) : Option Nat :=
  (readNumber w).or <| (registerNames.lookup w).or <| (readDispBuf w).or (modeNames.lookup w)

/-- The words of a line: separated by spaces, a comma and a star each a word, a semicolon and all
after it left out (30_encoding.md R106). -/
def traceWords : List Char → List Char → List (List Char)
  | cur, [] => if cur.isEmpty then [] else [cur]
  | cur, ch :: rest =>
    let done := if cur.isEmpty then [] else [cur]
    if ch = ';' then done
    else if ch = ' ' then done ++ traceWords [] rest
    else if ch = ',' ∨ ch = '*' then done ++ [ch] :: traceWords [] rest
    else traceWords (cur ++ [ch]) rest

/-- A value that fits in a byte. -/
def asByte (n : Nat) : Option Byte := if n < 256 then some (BitVec.ofNat 8 n) else none

/-- A button index 0..2. -/
def asButton (n : Nat) : Option (BitVec 2) := if n < 3 then some (BitVec.ofNat 2 n) else none

/-- A level 0 or 1. -/
def asLevel (n : Nat) : Option Bool := if n < 2 then some (n == 1) else none

/-- An operation without operands, from its mnemonic (30_encoding.md R106). -/
def readBare : List Char → Option Instr
  | ['N', 'O', 'P'] => some .nop
  | ['F', 'T', 'I', 'C', 'K'] => some .ftick
  | ['S', 'T', 'I', 'C', 'K'] => some .stick
  | ['R', 'E', 'S', 'E', 'T'] => some .reset
  | _ => none

/-- A line with one operand, from its mnemonic and the operand's value (30_encoding.md R106, R107). -/
def readOne (mn : List Char) (x : Nat) : Option TraceLine :=
  match mn with
  | ['A', 'D', 'C', 'D', 'O', 'N', 'E'] => (asByte x).map fun v => .op (.adcdone v)
  | ['A', 'L', 'M', 'S', 'W'] => (asLevel x).map fun l => .op (.almsw l)
  | ['H', 'R', 'D'] => (asByte x).map fun a => .op (.hrd a)
  | ['P', 'R', 'E', 'S', 'S'] => (asButton x).map .press
  | ['R', 'E', 'L', 'E', 'A', 'S', 'E'] => (asButton x).map .release
  | ['J', 'P', 'C', 'L', 'R'] => (asByte x).map .jpclr
  | ['S', 'E', 'T', 'M', 'O', 'D', 'E'] =>
    (asByte x).bind fun v => (DisplayMode.ofByte v).map .setmode
  | ['A', 'R', 'M'] => (asByte x).map .arm
  | _ => none

/-- An operation with two operands (30_encoding.md R106). -/
def readTwo (mn : List Char) (x y : Nat) : Option Instr :=
  match mn with
  | ['P', 'I', 'N'] => (asButton x).bind fun b => (asLevel y).map fun l => .pin b l
  | ['H', 'W', 'R'] => (asByte x).bind fun a => (asByte y).map fun d => .hwr a d
  | _ => none

/-- The line that a list of words writes (30_encoding.md R106, R107). -/
def readWords : List (List Char) → Option TraceLine
  | [mn] => (readBare mn).map .op
  | [mn, ['*'], n] => (readBare mn).bind fun i => (readNumber n).map fun k => .times i k
  | [mn, x] => (readOperand x).bind fun a => readOne mn a
  | [mn, x, ['*'], n] =>
    (readOperand x).bind fun a =>
      match readOne mn a with
      | some (.op i) => (readNumber n).map fun k => .times i k
      | _ => none
  | [mn, x, [','], y] =>
    (readOperand x).bind fun a => (readOperand y).bind fun b => (readTwo mn a b).map .op
  | [mn, x, [','], y, ['*'], n] =>
    (readOperand x).bind fun a => (readOperand y).bind fun b => (readTwo mn a b).bind fun i =>
      (readNumber n).map fun k => .times i k
  | _ => none

/-- The operations a line of a trace stands for: none where it holds only a comment, and no answer
where it is not a line of the trace syntax (30_encoding.md R106, R107; notes/assumptions/13.md). -/
def readTraceLine (line : List Char) : Option (List Instr) :=
  match traceWords [] line with
  | [] => some []
  | ws => (readWords ws).map TraceLine.expand

end Sys2Proof.Machine
end

