-- ==== Sys2Proof/Safety.lean ====
section
/-! DEFINITION. The terms in which statements speak of the machine: the ranges and invariants of
10_state.md R66 and R67, the calendar (42_rtc.md R189), and runs of one operation. -/

namespace Sys2Proof.Machine

/-- The time fields are in range (10_state.md R20, R66). -/
def Clock.TimeInRange (t : Clock) : Prop :=
  t.hour.toNat ≤ 23 ∧ t.minute.toNat ≤ 59 ∧ t.second.toNat ≤ 59

/-- The date fields are each in range (10_state.md R21, R66). -/
def Clock.DateInRange (t : Clock) : Prop :=
  1 ≤ t.day.toNat ∧ t.day.toNat ≤ 31 ∧ 1 ≤ t.month.toNat ∧ t.month.toNat ≤ 12 ∧ t.year.toNat ≤ 99

/-- The length of a month in days, in numbers of its own and not by the machine's tests: 30 for April,
June, September and November; 29 for February of a year that is a multiple of 4, and 28 for every other
February; 31 for the rest (42_rtc.md R182, R183, R189). -/
def monthLength (month year : Byte) : Nat :=
  if month.toNat = 2 then (if year.toNat % 4 = 0 then 29 else 28)
  else if month.toNat ∈ [4, 6, 9, 11] then 30 else 31

/-- A valid date: in range, and the day does not exceed the length of its month (42_rtc.md R182,
R189). -/
def Clock.ValidDate (t : Clock) : Prop :=
  t.DateInRange ∧ t.day.toNat ≤ monthLength t.month t.year

/-- The time of day in seconds. -/
def Clock.secondOfDay (t : Clock) : Nat :=
  t.hour.toNat * 3600 + t.minute.toNat * 60 + t.second.toNat

/-- The date, as (day, month, year) numbers. -/
def Clock.date (t : Clock) : Nat × Nat × Nat := (t.day.toNat, t.month.toNat, t.year.toNat)

/-- The date of the following day in the Gregorian calendar of 2000..2099, the day after 31 December
of year 99 being 1 January of year 0 (42_rtc.md R184, R189). -/
def Clock.nextDate (t : Clock) : Nat × Nat × Nat :=
  if t.day.toNat < monthLength t.month t.year then (t.day.toNat + 1, t.month.toNat, t.year.toNat)
  else if t.month.toNat < 12 then (1, t.month.toNat + 1, t.year.toNat)
  else (1, 1, if t.year.toNat < 99 then t.year.toNat + 1 else 0)

/-- The ten display modes with their numbers, pair by pair as the table gives them (10_state.md R28). -/
def modeNumbers : List (DisplayMode × Byte) :=
  [(.showTime, 0#8), (.showSnooze, 1#8), (.setAlarm, 2#8), (.setTime, 3#8), (.setDate, 4#8),
    (.setBrightness, 5#8), (.setDimmer, 6#8), (.setVolume, 7#8), (.setRegion, 8#8), (.noMode, 9#8)]

/-- The quantised set of brightness levels (10_state.md R29). -/
def BrightLevel (c : Config) (v : Byte) : Prop :=
  ∃ k, v.toNat = c.brightMin + k * c.brightStep ∧ v.toNat ≤ c.brightMax

/-- The press of a button is confirmed on the next fast tick: the settle interval ends on it and the
pin is low (41_buttons.md R154). -/
def Button.confirms (c : Config) (x : Button) : Bool :=
  x.st == .settle && x.cnt.toNat + 1 == c.debounceTicks && !x.pinLvl

/-- A press is in progress and confirmed (10_state.md R67 (f)). -/
def BtnState.isPressed : BtnState → Bool
  | .idle => false
  | .settle => false
  | .down => true
  | .grace => true
  | .held => true

/-- What holds of button `id` in every reachable state (10_state.md R25, R66, R67 (e), (f), (g)). -/
structure Button.Inv (c : Config) (id : ButtonId) (x : Button) : Prop where
  held_state : x.held = true → id = repeatBtn ∧ x.st = .held
  pressed_iff : x.st.isPressed = true ↔ x.rawPressed = true
  pressed_low : x.st.isPressed = true → x.pinLvl = false
  down_button : x.st = .down → id ≠ repeatBtn
  grace_button : x.st = .grace ∨ x.st = .held → id = repeatBtn
  settle_count : x.st = .settle → x.cnt.toNat < c.debounceTicks
  grace_count : x.st = .grace → x.cnt.toNat < c.graceTicks

/-- What holds of the alarm sequencer in every reachable state (10_state.md R22, R66, R67 (a)-(d)). -/
structure Alarm.Inv (c : Config) (x : Alarm) : Prop where
  hour_le : x.alarmH.toNat ≤ 23
  minute_le : x.alarmM.toNat ≤ 59
  buzzer_pulse : x.buzzerOn = x.pulsePhase
  pulse_ringing : x.pulsePhase = true → x.ringing = true ∧ x.snooze = 0#16
  snooze_ringing : x.snooze ≠ 0#16 → x.ringing = true
  ringing_enabled : x.ringing = true → x.alarmEn = true
  divider_lt : x.almDiv.toNat < almDivider
  snooze_le : x.snooze.toNat ≤ c.snoozeSecs

/-- What holds in every state reachable from RESET (10_state.md R66, R67), and the canonical form of
durable storage. -/
structure State.Inv (c : Config) (s : State) : Prop where
  time : s.clock.TimeInRange
  date : s.clock.DateInRange
  alarm : s.alarm.Inv c
  buttons : ∀ id, (s.buttons.get id).Inv c id
  digitIdx_lt : s.mux.digitIdx.toNat < c.nDigits
  muxDiv_lt : s.mux.muxDiv.toNat < c.muxDivider
  dispBuf_length : s.dispBuf.length = c.nDigits
  bright_level : BrightLevel c s.dimmer.bright
  brightOut_level : BrightLevel c s.dimmer.brightOut
  nv_wf : Memory.wf c s.nv = true

/-- `m'` is `m` with the byte at `addr` made `v` and every other byte as it was, in canonical form
(20_memory.md R72). -/
def StoredThrough (c : Config) (m m' : Memory) (addr : Nat) (v : Byte) : Prop :=
  Memory.wf c m' = true ∧ Memory.read c m' addr = v ∧
    ∀ a, a ≠ addr → Memory.read c m' a = Memory.read c m a

/-- The byte whose bits 0, 1, 2 are the three flags and whose other bits are 0. -/
def bitsByte (f0 f1 f2 : Bool) : Byte := BitVec.ofNat 8 (f0.toNat + 2 * f1.toNat + 4 * f2.toNat)

/-- The buttons whose press is confirmed on the next fast tick, in the order of BtnStep (40_mux.md
R130). -/
def Buttons.confirmed (c : Config) (bs : Buttons) : List ButtonId :=
  [ButtonId.a, ButtonId.b, ButtonId.c].filter fun id => (bs.get id).confirms c

/-- The alarm's trigger condition at the time `t` (43_alarm.md R220). -/
abbrev Alarm.Triggers (x : Alarm) (t : Clock) : Prop :=
  x.alarmEn = true ∧ t.hour = x.alarmH ∧ t.minute = x.alarmM ∧ t.second = 0#8

/-- The operation `i`, `k` times in a row. -/
def execTimes (i : Instr) : Nat → State → Host.Outcome State Fault Refusal
  | 0, s => .next s
  | k + 1, s =>
    match exec i s with
    | .next t => execTimes i k t
    | .fault r => .fault r
    | .refused r => .refused r

end Sys2Proof.Machine
end

