-- ==== Sys2Proof/Certificates/Slice0/Obligations.lean ====
section
/-! DEFINITION. The statements for the provers, each a `Prop`. `Config.hw` is the hardware's
configuration, of which nothing is known but that it is legal. A statement that some `exec i s` is
`.next` of a record update says at once what the operation changes and that it changes nothing else.
Two fields of the state are the model's own, not the spec's: `outs`, which holds the output list of the
last operation (notes/assumptions/2.md), and `inbox`, the events still to come, which no operation
touches (notes/assumptions/1.md, 14.md). -/

open Sys2Proof Sys2Proof.Machine

/-- 30_encoding.md R100-R103: decoding an operation's word, or its bytes, gives the operation back. -/
def Obligations.DecodeOfEncodeGivesTheOperation : Prop :=
  ∀ i : Instr, i.wellFormed = true →
    decodeWord (encode i) = .ok i ∧
    ∀ rest, decodeBytes (encodeBytes i ++ rest) = .ok (i, rest)

/-- 30_encoding.md R103: a word that decodes is the word of the operation it decodes to. -/
def Obligations.DecodedWordIsTheOperationsWord : Prop :=
  ∀ (w : EventWord) (i : Instr), decodeWord w = .ok i → i.wellFormed = true ∧ encode i = w

/-- 30_encoding.md R102: a word selects a row by mask and match, PIN needing W[9:8] ≠ 3 as well. -/
def Obligations.DecodeSelectsByMaskAndMatch : Prop :=
  (∀ (w : EventWord) (i : Instr), decodeWord w = .ok i → w &&& i.rowMask = i.rowMatch) ∧
  ∀ (w : EventWord) (i : Instr), w &&& i.rowMask = i.rowMatch →
    (i.opcode = 0x03#8 → w.extractLsb' 8 2 ≠ 3#2) →
      ∃ j, decodeWord w = .ok j ∧ j.opcode = i.opcode

/-- 30_encoding.md R109: the worked encodings and the worked reserved words. -/
def Obligations.WorkedEncodingsDecode : Prop :=
  (∀ p ∈ [(0x010000#24, Instr.ftick), (0x020000#24, .stick), (0x030200#24, .pin 2#2 false),
      (0x030201#24, .pin 2#2 true), (0x04007F#24, .adcdone 0x7F#8), (0x050001#24, .almsw true),
      (0x060F05#24, .hwr 0x0F#8 0x05#8), (0x070D00#24, .hrd 0x0D#8), (0x080000#24, .reset),
      (0x000000#24, .nop)], decodeWord p.1 = .ok p.2 ∧ encode p.2 = p.1) ∧
  ∀ p ∈ [(0x030300#24, DecodeError.pinButtonReserved), (0x010001#24, .nonzeroD 0x01#8),
      (0x070D01#24, .nonzeroD 0x07#8), (0x090000#24, .reservedOpcode 0x09#8)],
    decodeWord p.1 = .error p.2

/-- 30_encoding.md R104: a word that is no operation's word is refused by the step that meets it. -/
def Obligations.ReservedWordsAreRefused : Prop :=
  ∀ (s : State) (w : EventWord) (rest : List EventWord), s.inbox = w :: rest →
    (∀ i : Instr, i.wellFormed = true → encode i ≠ w) →
      ∃ e, decodeWord w = .error e ∧ step s = .refused (.reservedWord e)

/-- 30_encoding.md R102, R104: PIN has no meaning for the reserved index 3. -/
def Obligations.PinOfIndexThreeIsRefused : Prop :=
  ∀ (s : State) (lvl : Bool), exec (.pin 3#2 lvl) s = .refused .reservedButton

/-- 00_scope.md R5: a step takes the next event out of the environment's list and is that event's
operation. That the events to come stand in a list of the state is the model's choice
(notes/assumptions/1.md). -/
def Obligations.StepRunsTheDecodedEvent : Prop :=
  ∀ (s : State) (w : EventWord) (rest : List EventWord) (i : Instr), s.inbox = w :: rest →
    decodeWord w = .ok i → step s = exec i { s with inbox := rest }

/-- The model's choice (notes/assumptions/1.md): with no event to come, a step is a moment at which no
port is active. -/
def Obligations.StepWithoutEventIsNop : Prop :=
  ∀ s : State, s.inbox = [] → step s = .next { s with outs := [] }

/-- Every operation gives a next state in every state. 60_exceptions.md R300 says so of the states within
the bounds of 10_state.md R66; that the operations are total outside these bounds as well is the model's
choice (notes/assumptions/7.md). -/
def Obligations.EveryOperationCompletes : Prop :=
  ∀ (i : Instr) (s : State), i.wellFormed = true → ∃ t, exec i s = .next t

/-- 45_host.md R292. -/
def Obligations.NopChangesNothing : Prop :=
  ∀ s : State, exec .nop s = .next { s with outs := [] }

/-- 45_host.md R270 with 10_state.md R40-R64: HRD returns the byte of the register map, and changes no
state. DISP_MODE reads as the number of the mode (10_state.md R28). -/
def Obligations.HrdReturnsTheRegisterByte : Prop :=
  (∀ s : State, ∀ p ∈ [(0x00#8, s.clock.second), (0x01#8, s.clock.minute), (0x02#8, s.clock.hour),
      (0x03#8, s.clock.day), (0x04#8, s.clock.month), (0x05#8, s.clock.year),
      (0x06#8, s.alarm.alarmM), (0x07#8, s.alarm.alarmH),
      (0x08#8, bitsByte s.alarm.alarmEn false false),
      (0x09#8, bitsByte s.alarm.ringing s.alarm.pulsePhase false),
      (0x0A#8, BitVec.ofNat 8 (s.alarm.snooze.toNat % 256)),
      (0x0B#8, BitVec.ofNat 8 (s.alarm.snooze.toNat / 256)),
      (0x0C#8, bitsByte s.buttons.a.rawPressed s.buttons.b.rawPressed s.buttons.c.rawPressed),
      (0x0D#8, bitsByte s.buttons.a.justPressed s.buttons.b.justPressed s.buttons.c.justPressed),
      (0x0E#8, bitsByte s.buttons.a.held s.buttons.b.held s.buttons.c.held),
      (0x10#8, s.dimmer.bright),
      (0x11#8, s.dimmer.brightOut), (0x12#8, bitsByte s.dimmer.dimmerEn false false),
      (0x13#8, s.inact), (0x14#8, bitsByte s.timeUnknown false false), (0x15#8, s.volume),
      (0x16#8, s.region)],
    exec (.hrd p.1) s = .next { s with outs := [.rd p.2] }) ∧
  (∀ s : State, ∀ p ∈ modeNumbers, s.mode = p.1 →
    exec (.hrd 0x0F#8) s = .next { s with outs := [.rd p.2] }) ∧
  (∀ (s : State) (i : Nat) (h : i < s.dispBuf.length), s.dispBuf.length = Config.hw.nDigits →
    exec (.hrd (BitVec.ofNat 8 (0x20 + i))) s = .next { s with outs := [.rd s.dispBuf[i]] }) ∧
  ∀ (s : State) (a : Byte),
    (0x17 ≤ a.toNat ∧ a.toNat < 0x20) ∨ 0x20 + Config.hw.nDigits ≤ a.toNat →
      exec (.hrd a) s = .next { s with outs := [.rd 0#8] }

/-- 45_host.md R273: the writes to the time, date and alarm-time registers. -/
def Obligations.HwrStoresTimeDateAndAlarm : Prop :=
  ∀ (s : State) (d : Byte), Memory.wf Config.hw s.nv = true →
    (∃ v m, v.toNat = d.toNat % 60 ∧ StoredThrough Config.hw s.nv m 0x02 v ∧
      exec (.hwr 0x00#8 d) s = .next { s with
        clock := { s.clock with second := v }, nv := m, outs := [.nvw 0x02#8 v] }) ∧
    (∃ v m, v.toNat = d.toNat % 60 ∧ StoredThrough Config.hw s.nv m 0x01 v ∧
      exec (.hwr 0x01#8 d) s = .next { s with
        clock := { s.clock with minute := v }, nv := m, outs := [.nvw 0x01#8 v] }) ∧
    (∃ v m, v.toNat = d.toNat % 24 ∧ StoredThrough Config.hw s.nv m 0x00 v ∧
      exec (.hwr 0x02#8 d) s = .next { s with
        clock := { s.clock with hour := v }, nv := m, outs := [.nvw 0x00#8 v] }) ∧
    (∃ v m, v.toNat = (d.toNat + 30) % 31 + 1 ∧ StoredThrough Config.hw s.nv m 0x05 v ∧
      exec (.hwr 0x03#8 d) s = .next { s with
        clock := { s.clock with day := v }, nv := m, outs := [.nvw 0x05#8 v] }) ∧
    (∃ v m, v.toNat = (d.toNat + 11) % 12 + 1 ∧ StoredThrough Config.hw s.nv m 0x06 v ∧
      exec (.hwr 0x04#8 d) s = .next { s with
        clock := { s.clock with month := v }, nv := m, outs := [.nvw 0x06#8 v] }) ∧
    (∃ v m, v.toNat = d.toNat % 100 ∧ StoredThrough Config.hw s.nv m 0x07 v ∧
      exec (.hwr 0x05#8 d) s = .next { s with
        clock := { s.clock with year := v }, nv := m, outs := [.nvw 0x07#8 v] }) ∧
    (∃ v m, v.toNat = d.toNat % 60 ∧ StoredThrough Config.hw s.nv m 0x04 v ∧
      exec (.hwr 0x06#8 d) s = .next { s with
        alarm := { s.alarm with alarmM := v }, nv := m, outs := [.nvw 0x04#8 v] }) ∧
    (∃ v m, v.toNat = d.toNat % 24 ∧ StoredThrough Config.hw s.nv m 0x03 v ∧
      exec (.hwr 0x07#8 d) s = .next { s with
        alarm := { s.alarm with alarmH := v }, nv := m, outs := [.nvw 0x03#8 v] })

/-- 45_host.md R280: a write to BRIGHT. -/
def Obligations.HwrBrightStoresAndDrives : Prop :=
  ∀ (s : State) (d : Byte), Memory.wf Config.hw s.nv = true →
    ∃ m, StoredThrough Config.hw s.nv m 0x08 (clampq Config.hw d) ∧
      exec (.hwr 0x10#8 d) s = .next { s with
        dimmer := { s.dimmer with bright := clampq Config.hw d, brightOut := clampq Config.hw d }
        nv := m
        outs := .nvw 0x08#8 (clampq Config.hw d) ::
          if s.dimmer.brightOut = clampq Config.hw d then [] else [.bright (clampq Config.hw d)] }

/-- 45_host.md R281: a write to DIM_CTRL. -/
def Obligations.HwrDimCtrlStoresAndRestores : Prop :=
  ∀ (s : State) (d : Byte), Memory.wf Config.hw s.nv = true →
    (d.getLsbD 0 = true → ∃ m, StoredThrough Config.hw s.nv m 0x0B 1#8 ∧
      exec (.hwr 0x12#8 d) s = .next { s with
        dimmer := { s.dimmer with dimmerEn := true }, nv := m, outs := [.nvw 0x0B#8 1#8] }) ∧
    (d.getLsbD 0 = false → ∃ m, StoredThrough Config.hw s.nv m 0x0B 0#8 ∧
      exec (.hwr 0x12#8 d) s = .next { s with
        dimmer := { s.dimmer with dimmerEn := false, brightOut := s.dimmer.bright }
        nv := m
        outs := .nvw 0x0B#8 0#8 ::
          if s.dimmer.brightOut = s.dimmer.bright then [] else [.bright s.dimmer.bright] })

/-- 45_host.md R284: writes to VOLUME and REGION. -/
def Obligations.HwrStoresVolumeAndRegion : Prop :=
  ∀ (s : State) (d : Byte), Memory.wf Config.hw s.nv = true →
    (∃ m, StoredThrough Config.hw s.nv m 0x09 d ∧
      exec (.hwr 0x15#8 d) s = .next { s with volume := d, nv := m, outs := [.nvw 0x09#8 d] }) ∧
    (∃ m, StoredThrough Config.hw s.nv m 0x0A d ∧
      exec (.hwr 0x16#8 d) s = .next { s with region := d, nv := m, outs := [.nvw 0x0A#8 d] })

/-- 45_host.md R276 with 43_alarm.md R228, R232, R233: a write to ALM_CTRL. -/
def Obligations.HwrAlmCtrlEnablesOrDisables : Prop :=
  ∀ (s : State) (d : Byte),
    (d.getLsbD 0 = true → exec (.hwr 0x08#8 d) s =
      .next { s with alarm := { s.alarm with alarmEn := true }, outs := [] }) ∧
    (d.getLsbD 0 = false → exec (.hwr 0x08#8 d) s =
      .next { s with
        alarm := { s.alarm with
          alarmEn := false, ringing := false, snooze := 0#16, pulsePhase := false
          buzzerOn := s.alarm.buzzerOn && !s.alarm.pulsePhase }
        outs := if s.alarm.pulsePhase then [.buzz false Config.hw.buzzPeriod] else [] })

/-- 45_host.md R277: BTN_JP is write 1 to clear, bit by bit. -/
def Obligations.HwrBtnJpClearsNamedFlags : Prop :=
  ∀ (s : State) (d : Byte), ∃ bs,
    exec (.hwr 0x0D#8 d) s = .next { s with buttons := bs, outs := [] } ∧
    ∀ id, bs.get id = { s.buttons.get id with
      justPressed := (s.buttons.get id).justPressed && !d.getLsbD (buttonIndex id).toNat }

/-- 45_host.md R279 with 10_state.md R28: a write to DISP_MODE, for each of the ten pairs of a number and
a mode, and for every other byte. -/
def Obligations.HwrDispModeTakesTenValues : Prop :=
  (∀ s : State, ∀ p ∈ [(0#8, DisplayMode.showTime), (1#8, .showSnooze), (2#8, .setAlarm),
      (3#8, .setTime), (4#8, .setDate), (5#8, .setBrightness), (6#8, .setDimmer), (7#8, .setVolume),
      (8#8, .setRegion), (9#8, .noMode)],
    exec (.hwr 0x0F#8 p.1) s = .next { s with mode := p.2, outs := [] }) ∧
  ∀ (s : State) (d : Byte), 10 ≤ d.toNat →
    exec (.hwr 0x0F#8 d) s = .next { s with outs := [] }

/-- 45_host.md R282, R283: writes to INACT and STATUS. -/
def Obligations.HwrInactAndStatus : Prop :=
  ∀ (s : State) (d : Byte),
    exec (.hwr 0x13#8 d) s = .next { s with inact := d, outs := [] } ∧
    exec (.hwr 0x14#8 d) s = .next { s with timeUnknown := d.getLsbD 0, outs := [] }

/-- 45_host.md R285: a write to DISPBUF[i]. -/
def Obligations.HwrDispBufSetsOneByte : Prop :=
  ∀ (s : State) (i : Nat) (d : Byte), s.dispBuf.length = Config.hw.nDigits → i < Config.hw.nDigits →
    ∃ buf, exec (.hwr (BitVec.ofNat 8 (0x20 + i)) d) s = .next { s with dispBuf := buf, outs := [] } ∧
      buf.length = s.dispBuf.length ∧ buf[i]? = some d ∧
      ∀ j, j ≠ i → buf[j]? = s.dispBuf[j]?

/-- 45_host.md R286: a write to a read-only register or to an unmapped address. -/
def Obligations.HwrElsewhereChangesNothing : Prop :=
  ∀ (s : State) (a d : Byte),
    a ∈ [0x09#8, 0x0A#8, 0x0B#8, 0x0C#8, 0x0E#8, 0x11#8] ∨
      (0x17 ≤ a.toNat ∧ a.toNat < 0x20) ∨ 0x20 + Config.hw.nDigits ≤ a.toNat →
    exec (.hwr a d) s = .next { s with outs := [] }

/-- 41_buttons.md R151: a level that repeats the stored one is no edge. -/
def Obligations.PinRepeatingALevelChangesNothing : Prop :=
  ∀ (s : State) (id : ButtonId),
    exec (.pin (buttonIndex id) (s.buttons.get id).pinLvl) s = .next { s with outs := [] }

/-- 41_buttons.md R150, R152: a press edge. -/
def Obligations.PinPressEdgeStartsTheSettleInterval : Prop :=
  ∀ (s : State) (id : ButtonId), (s.buttons.get id).pinLvl = true →
    ∃ bs, exec (.pin (buttonIndex id) false) s = .next { s with buttons := bs, outs := [] } ∧
      (∀ j, j ≠ id → bs.get j = s.buttons.get j) ∧
      bs.get id =
        if (s.buttons.get id).st = .idle ∧ (s.buttons.get id).rawPressed = false then
          { s.buttons.get id with pinLvl := false, st := .settle, cnt := 0#16 }
        else { s.buttons.get id with pinLvl := false }

/-- 41_buttons.md R150, R153, R158: a release edge. -/
def Obligations.PinReleaseEdgeEndsThePress : Prop :=
  ∀ (s : State) (id : ButtonId), (s.buttons.get id).pinLvl = false →
    ∃ bs, exec (.pin (buttonIndex id) true) s = .next { s with buttons := bs, outs := [] } ∧
      (∀ j, j ≠ id → bs.get j = s.buttons.get j) ∧
      bs.get id =
        match (s.buttons.get id).st with
        | .idle => { s.buttons.get id with pinLvl := true }
        | .settle => { s.buttons.get id with pinLvl := true }
        | .down => { s.buttons.get id with pinLvl := true, rawPressed := false, st := .idle }
        | .held =>
          { s.buttons.get id with pinLvl := true, rawPressed := false, held := false, st := .idle }
        | .grace =>
          { s.buttons.get id with
            pinLvl := true, rawPressed := false, justPressed := true, st := .idle }

/-- 43_alarm.md R231 with R228, R232, R233: the alarm switch. -/
def Obligations.AlmswFollowsTheSwitch : Prop :=
  ∀ s : State,
    exec (.almsw s.alarm.almswLvl) s = .next { s with outs := [] } ∧
    (s.alarm.almswLvl = false → exec (.almsw true) s =
      .next { s with alarm := { s.alarm with almswLvl := true, alarmEn := true }, outs := [] }) ∧
    (s.alarm.almswLvl = true → exec (.almsw false) s =
      .next { s with
        alarm := { s.alarm with
          almswLvl := false, alarmEn := false, ringing := false, snooze := 0#16, pulsePhase := false
          buzzerOn := s.alarm.buzzerOn && !s.alarm.pulsePhase }
        outs := if s.alarm.pulsePhase then [.buzz false Config.hw.buzzPeriod] else [] })

/-- 44_dimmer.md R251, R252: a sample is discarded, or decides the brightness alone. -/
def Obligations.AdcdoneAppliesTheSample : Prop :=
  ∀ (s : State) (v : Byte),
    (s.dimmer.dimmerEn = false ∨ s.mode = .setBrightness → exec (.adcdone v) s =
      .next { s with dimmer := { s.dimmer with adcPending := false }, outs := [] }) ∧
    (s.dimmer.dimmerEn = true → s.mode ≠ .setBrightness →
      ∃ new : Byte,
        new.toNat = (if v.toNat < Config.hw.dimThreshold.toNat then Config.hw.brightMin
          else s.dimmer.bright.toNat) ∧
        exec (.adcdone v) s = .next { s with
          dimmer := { s.dimmer with adcPending := false, brightOut := new }
          outs := if s.dimmer.brightOut = new then [] else [.bright new] })

/-- 70_reset_and_hazards.md R330: what RESET makes of every field. -/
def Obligations.ResetLoadsAndClears : Prop :=
  ∀ s : State,
    let nv := fun a => (Memory.read Config.hw s.nv a).toNat
    exec .reset s = .next {
      clock := {
        hour := BitVec.ofNat 8 (nv 0x00 % 24)
        minute := BitVec.ofNat 8 (nv 0x01 % 60)
        second := BitVec.ofNat 8 (nv 0x02 % 60)
        day := BitVec.ofNat 8 ((nv 0x05 + 30) % 31 + 1)
        month := BitVec.ofNat 8 ((nv 0x06 + 11) % 12 + 1)
        year := BitVec.ofNat 8 (nv 0x07 % 100) }
      alarm := {
        alarmH := BitVec.ofNat 8 (nv 0x03 % 24)
        alarmM := BitVec.ofNat 8 (nv 0x04 % 60)
        alarmEn := s.alarm.almswLvl
        ringing := false, pulsePhase := false, snooze := 0#16, almDiv := 0#8, buzzerOn := false
        almswLvl := s.alarm.almswLvl }
      buttons := {
        a := ⟨s.buttons.a.pinLvl, .idle, 0#16, false, false, false⟩
        b := ⟨s.buttons.b.pinLvl, .idle, 0#16, false, false, false⟩
        c := ⟨s.buttons.c.pinLvl, .idle, 0#16, false, false, false⟩ }
      mux := ⟨0#4, 0#16, 0#4, 0#8, false⟩
      dimmer := {
        bright := clampq Config.hw (Memory.read Config.hw s.nv 0x08)
        brightOut := clampq Config.hw (Memory.read Config.hw s.nv 0x08)
        dimmerEn := nv 0x0B % 2 == 1
        adcPending := false }
      dispBuf := List.replicate Config.hw.nDigits 0#8
      mode := .showTime
      timeUnknown := true
      inact := 0#8
      volume := Memory.read Config.hw s.nv 0x09
      region := Memory.read Config.hw s.nv 0x0A
      nv := s.nv
      outs := []
      inbox := s.inbox }

/-- 70_reset_and_hazards.md R332: RESET applied to the state RESET has produced gives the same state. -/
def Obligations.ResetIsIdempotent : Prop :=
  ∀ s t : State, exec .reset s = .next t → exec .reset t = .next t

/-- 70_reset_and_hazards.md R332: the state after RESET depends on durable storage and the input latches
alone. -/
def Obligations.ResetDependsOnStorageAndLatchesOnly : Prop :=
  ∀ s s' : State, s.nv = s'.nv → s.alarm.almswLvl = s'.alarm.almswLvl →
    (∀ id, (s.buttons.get id).pinLvl = (s'.buttons.get id).pinLvl) → s.inbox = s'.inbox →
      exec .reset s = exec .reset s'

/-- 70_reset_and_hazards.md R333: the machine starts in what RESET leaves of a launch state, whose open
part is the model's uninterpreted choice (notes/assumptions/4.md, 5.md). -/
def Obligations.ResetOfTheStartStateIsTheStartState : Prop :=
  exec .reset State.reset = .next State.reset

/-- 40_mux.md R131, R132: the multiplexer's part of FTICK, and its pair first in the output list. -/
def Obligations.FtickDividesAndFires : Prop :=
  ∀ s : State, ∃ t, exec .ftick s = .next t ∧
    (s.mux.muxDiv.toNat = Config.hw.muxDivider - 1 →
      t.mux = {
        digitIdx := if s.mux.digitIdx.toNat = Config.hw.nDigits - 1 then 0#4
          else s.mux.digitIdx + 1#4
        muxDiv := 0#16
        dispIdxO := s.mux.digitIdx
        dispSegO := s.dispBuf.getD s.mux.digitIdx.toNat 0#8
        dispValidO := true } ∧
      t.outs.head? = some (.disp s.mux.digitIdx (s.dispBuf.getD s.mux.digitIdx.toNat 0#8)) ∧
      ∀ e ∈ t.outs.tail, e.isDisp = false) ∧
    (s.mux.muxDiv.toNat ≠ Config.hw.muxDivider - 1 →
      t.mux = { s.mux with muxDiv := s.mux.muxDiv + 1#16 } ∧ ∀ e ∈ t.outs, e.isDisp = false)

/-- 43_alarm.md R224, R227: the alarm's part of FTICK, and the snooze trigger of a confirmed press. -/
def Obligations.FtickPulsesOrSnoozes : Prop :=
  ∀ s : State, s.alarm.buzzerOn = s.alarm.pulsePhase → ∃ t, exec .ftick s = .next t ∧
    let counting := s.alarm.ringing = true ∧ s.alarm.snooze = 0#16
    let div := if counting then
        (if s.alarm.almDiv.toNat = 99 then 0#8 else s.alarm.almDiv + 1#8) else s.alarm.almDiv
    let pulse := if counting ∧ s.alarm.almDiv.toNat = 99 then !s.alarm.pulsePhase
      else s.alarm.pulsePhase
    (s.alarm.ringing = true ∧ s.buttons.confirmed Config.hw ≠ [] →
      t.mode = .showSnooze ∧
      t.alarm = { s.alarm with
        almDiv := div, snooze := BitVec.ofNat 16 Config.hw.snoozeSecs
        pulsePhase := false, buzzerOn := false }) ∧
    (s.alarm.ringing = false ∨ s.buttons.confirmed Config.hw = [] →
      t.mode = s.mode ∧
      t.alarm = { s.alarm with almDiv := div, pulsePhase := pulse, buzzerOn := pulse })

/-- 41_buttons.md R154-R157: the button part of FTICK. -/
def Obligations.FtickStepsEachButton : Prop :=
  ∀ s : State, ∃ t, exec .ftick s = .next t ∧ ∀ id,
    let x := s.buttons.get id
    t.buttons.get id =
      match x.st with
      | .settle =>
        if x.cnt.toNat + 1 = Config.hw.debounceTicks then
          if x.pinLvl = true ∨ s.alarm.ringing = true then { x with st := .idle }
          else if id = .c then { x with rawPressed := true, st := .grace, cnt := 0#16 }
          else { x with rawPressed := true, justPressed := true, st := .down }
        else { x with cnt := x.cnt + 1#16 }
      | .grace =>
        if x.cnt.toNat + 1 = Config.hw.graceTicks then { x with held := true, st := .held }
        else { x with cnt := x.cnt + 1#16 }
      | .idle => x
      | .down => x
      | .held => x

/-- 40_mux.md R130: the outputs of FTICK in the order of its steps. Two BUZZ events in one tick are
possible, as the pseudocode and vector A6 have it (notes/assumptions/15.md). -/
def Obligations.FtickOutputsInStepOrder : Prop :=
  ∀ s : State, ∃ t, exec .ftick s = .next t ∧
    let flips := s.alarm.ringing = true ∧ s.alarm.snooze = 0#16 ∧ s.alarm.almDiv.toNat = 99
    let pulse := if flips then !s.alarm.pulsePhase else s.alarm.pulsePhase
    let off := if s.alarm.ringing = true ∧ pulse = true then
        [OutEvent.buzz false Config.hw.buzzPeriod] else []
    t.outs =
      (if s.mux.muxDiv.toNat = Config.hw.muxDivider - 1 then
        [OutEvent.disp s.mux.digitIdx (s.dispBuf.getD s.mux.digitIdx.toNat 0#8)] else []) ++
      (if flips then [OutEvent.buzz (!s.alarm.pulsePhase) Config.hw.buzzPeriod] else []) ++
      match s.buttons.confirmed Config.hw with
      | [] => []
      | _ :: more => OutEvent.click :: off ++ more.map fun _ => OutEvent.click

/-- 60_exceptions.md R314, 40_mux.md R134: what FTICK leaves as it was. -/
def Obligations.FtickLeavesTimeAndStorage : Prop :=
  ∀ s : State, ∃ t, exec .ftick s = .next t ∧
    t.clock = s.clock ∧ t.dimmer = s.dimmer ∧ t.dispBuf = s.dispBuf ∧
    t.timeUnknown = s.timeUnknown ∧ t.inact = s.inact ∧ t.volume = s.volume ∧
    t.region = s.region ∧ t.nv = s.nv ∧ t.inbox = s.inbox ∧
    t.alarm.alarmH = s.alarm.alarmH ∧ t.alarm.alarmM = s.alarm.alarmM ∧
    t.alarm.alarmEn = s.alarm.alarmEn ∧ t.alarm.ringing = s.alarm.ringing ∧
    t.alarm.almswLvl = s.alarm.almswLvl ∧
    ∀ id, (t.buttons.get id).pinLvl = (s.buttons.get id).pinLvl

/-- 40_mux.md R136: after `k` fast ticks from the multiplexer's reset values, `k / MUX_DIVIDER` firings
have happened, the last of them at position (k / MUX_DIVIDER - 1) mod N_DIGITS. -/
def Obligations.FastTicksScanThePositionsCyclically : Prop :=
  ∀ (k : Nat) (s : State), s.mux = ⟨0#4, 0#16, 0#4, 0#8, false⟩ →
    ∃ t, execTimes .ftick k s = .next t ∧ t.dispBuf = s.dispBuf ∧
      t.mux.muxDiv.toNat = k % Config.hw.muxDivider ∧
      t.mux.digitIdx.toNat = (k / Config.hw.muxDivider) % Config.hw.nDigits ∧
      (t.mux.dispValidO = true ↔ Config.hw.muxDivider ≤ k) ∧
      (Config.hw.muxDivider ≤ k →
        t.mux.dispIdxO.toNat = (k / Config.hw.muxDivider - 1) % Config.hw.nDigits ∧
        t.mux.dispSegO = s.dispBuf.getD t.mux.dispIdxO.toNat 0#8)

/-- 42_rtc.md R181: STICK advances the time of day by one second. -/
def Obligations.StickAdvancesTheTimeOfDay : Prop :=
  ∀ s : State, s.clock.TimeInRange → ∃ t, exec .stick s = .next t ∧ t.clock.TimeInRange ∧
    t.clock.secondOfDay = (s.clock.secondOfDay + 1) % 86400

/-- 42_rtc.md R182-R184, R189: from a valid date STICK follows the Gregorian calendar, whose month lengths
`monthLength` gives in numbers. -/
def Obligations.StickFollowsTheCalendar : Prop :=
  ∀ s : State, s.clock.TimeInRange → s.clock.ValidDate →
    ∃ t, exec .stick s = .next t ∧ t.clock.ValidDate ∧
      t.clock.date = if s.clock.secondOfDay = 86399 then s.clock.nextDate else s.clock.date

/-- 42_rtc.md R182, R189: what the date guards make of each invalid date at the next STICK, at every time
of day. At 23:59:59 they see the day after its increment, so 30 February becomes 31 February and 31
February becomes 1 March there; at every other time it is the other way about: 30 February becomes 1
March and 31 February stays. -/
def Obligations.StickRepairsAnInvalidDate : Prop :=
  ∀ s : State, s.clock.TimeInRange → s.clock.year.toNat ≤ 99 →
    (s.clock.month.toNat ∈ [4, 6, 9, 11] → s.clock.day.toNat = 31 → ∃ t, exec .stick s = .next t ∧
      t.clock.date = (1, s.clock.month.toNat + 1, s.clock.year.toNat)) ∧
    (s.clock.month.toNat = 2 → s.clock.day.toNat = 29 → s.clock.year.toNat % 4 ≠ 0 →
      ∃ t, exec .stick s = .next t ∧ t.clock.date = (1, 3, s.clock.year.toNat)) ∧
    (s.clock.month.toNat = 2 → s.clock.day.toNat = 30 → ∃ t, exec .stick s = .next t ∧
      t.clock.date = if s.clock.secondOfDay = 86399 then (31, 2, s.clock.year.toNat)
        else (1, 3, s.clock.year.toNat)) ∧
    (s.clock.month.toNat = 2 → s.clock.day.toNat = 31 → ∃ t, exec .stick s = .next t ∧
      t.clock.date = if s.clock.secondOfDay = 86399 then (1, 3, s.clock.year.toNat)
        else (31, 2, s.clock.year.toNat))

/-- 42_rtc.md R185: which bytes of durable storage STICK writes, and what it lists, in order. -/
def Obligations.StickWritesChangedFieldsThrough : Prop :=
  ∀ s : State, Memory.wf Config.hw s.nv = true → ∃ t, exec .stick s = .next t ∧
    let fields := [(0x02#8, s.clock.second, t.clock.second), (0x01#8, s.clock.minute, t.clock.minute),
      (0x00#8, s.clock.hour, t.clock.hour), (0x05#8, s.clock.day, t.clock.day),
      (0x06#8, s.clock.month, t.clock.month), (0x07#8, s.clock.year, t.clock.year)]
    let writes := if t.clock.hour ≠ s.clock.hour ∨ t.clock.day ≠ s.clock.day ∨
        t.clock.month ≠ s.clock.month ∨ t.clock.year ≠ s.clock.year then
      fields.filter fun f => f.2.2 != f.2.1 else []
    Memory.wf Config.hw t.nv = true ∧
    t.outs = (writes.map fun f => OutEvent.nvw f.1 f.2.2) ++
      (if s.dimmer.dimmerEn = true then [OutEvent.adcStart] else []) ∧
    (∀ f ∈ writes, Memory.read Config.hw t.nv f.1.toNat = f.2.2) ∧
    ∀ a, (∀ f ∈ writes, f.1.toNat ≠ a) →
      Memory.read Config.hw t.nv a = Memory.read Config.hw s.nv a

/-- 42_rtc.md R186, R187, 43_alarm.md R221: every bit of DISPBUF after STICK. -/
def Obligations.StickRendersAndBlinks : Prop :=
  ∀ s : State, s.dispBuf.length = Config.hw.nDigits → ∃ t, exec .stick s = .next t ∧
    let blink := s.alarm.snooze ≠ 0#16 ∧ ¬ s.alarm.Triggers t.clock
    let unk := s.timeUnknown && t.clock.second.toNat % 2 == 1
    t.dispBuf.length = Config.hw.nDigits ∧
    (s.mode = .showTime → ∀ i j, j < 8 →
      (t.dispBuf.getD i 0#8).getLsbD j =
        if i = 0 ∧ j = Config.hw.indAlarmBit.val then
          (if blink then (s.alarm.snooze.toNat - 1) % 2 == 1 else s.alarm.alarmEn)
        else ((Config.hw.renderTime t.clock.hour t.clock.minute t.clock.second s.region unk).getD i
          0#8).getLsbD j) ∧
    (s.mode ≠ .showTime → ∀ i j, j < 8 →
      (t.dispBuf.getD i 0#8).getLsbD j =
        if i = 0 ∧ j = Config.hw.indAlarmBit.val ∧ blink then
          (s.alarm.snooze.toNat - 1) % 2 == 1
        else (s.dispBuf.getD i 0#8).getLsbD j)

/-- 43_alarm.md R220, R221: the alarm's part of STICK, on the time as the same STICK has updated it. -/
def Obligations.StickTriggersOrCountsDown : Prop :=
  ∀ s : State, ∃ t, exec .stick s = .next t ∧
    (s.alarm.Triggers t.clock → t.alarm = { s.alarm with ringing := true, snooze := 0#16 }) ∧
    (¬ s.alarm.Triggers t.clock → s.alarm.snooze ≠ 0#16 →
      t.alarm = { s.alarm with snooze := s.alarm.snooze - 1#16 }) ∧
    (¬ s.alarm.Triggers t.clock → s.alarm.snooze = 0#16 → t.alarm = s.alarm)

/-- 42_rtc.md R188, 44_dimmer.md R250: the inactivity countdown and the conversion request. -/
def Obligations.StickCountsInactivityAndRequests : Prop :=
  ∀ s : State, ∃ t, exec .stick s = .next t ∧
    t.inact.toNat = s.inact.toNat - 1 ∧
    t.dimmer = { s.dimmer with adcPending := s.dimmer.adcPending || s.dimmer.dimmerEn } ∧
    (OutEvent.adcStart ∈ t.outs ↔ s.dimmer.dimmerEn = true)

/-- 60_exceptions.md R314, 42_rtc.md R180: what STICK leaves as it was, and the kinds it emits. -/
def Obligations.StickLeavesButtonsAndMultiplexer : Prop :=
  ∀ s : State, ∃ t, exec .stick s = .next t ∧
    t.buttons = s.buttons ∧ t.mux = s.mux ∧ t.mode = s.mode ∧ t.timeUnknown = s.timeUnknown ∧
    t.volume = s.volume ∧ t.region = s.region ∧ t.inbox = s.inbox ∧
    ∀ e ∈ t.outs, e = .adcStart ∨ ∃ a v, e = .nvw a v

/-- 42_rtc.md R190: 86400 STICKs from any time of day and any valid date come back to the same time of
day, on the following date. -/
def Obligations.ADayOfSticksIsOneDay : Prop :=
  ∀ s : State, s.clock.TimeInRange → s.clock.ValidDate →
    ∃ t, execTimes .stick 86400 s = .next t ∧ t.clock.TimeInRange ∧ t.clock.ValidDate ∧
      t.clock.secondOfDay = s.clock.secondOfDay ∧ t.clock.date = s.clock.nextDate

/-- 10_state.md R66, R67: every step keeps the invariant, from every state that has it. -/
def Obligations.EveryStepKeepsTheInvariant : Prop :=
  ∀ s t : State, s.Inv Config.hw → step s = .next t → t.Inv Config.hw

/-- 10_state.md R67: the state after reset has the invariant. -/
def Obligations.ResetHasTheInvariant : Prop := State.reset.Inv Config.hw

/-- 43_alarm.md R226: `ringing` ends only by disabling the alarm or by RESET. -/
def Obligations.RingingEndsOnlyByDisableOrReset : Prop :=
  ∀ (i : Instr) (s t : State), exec i s = .next t → s.alarm.ringing = true →
    t.alarm.ringing = false →
      i = .reset ∨ (i = .almsw false ∧ s.alarm.almswLvl = true) ∨
        ∃ d : Byte, i = .hwr 0x08#8 d ∧ d.getLsbD 0 = false

/-- 43_alarm.md R220, R229: `ringing` begins only on a STICK whose updated time is the alarm time at
second 0, with the alarm enabled. -/
def Obligations.RingingBeginsOnlyAtTheAlarmTime : Prop :=
  ∀ (i : Instr) (s t : State), exec i s = .next t → s.alarm.ringing = false →
    t.alarm.ringing = true → i = .stick ∧ s.alarm.Triggers t.clock

/-- 10_state.md R28: only DISP_MODE writes, the snooze trigger and RESET write `mode`. -/
def Obligations.ModeHasThreeWriters : Prop :=
  ∀ (i : Instr) (s t : State), exec i s = .next t → t.mode ≠ s.mode →
    (i = .reset ∧ t.mode = .showTime) ∨
    (i = .ftick ∧ s.alarm.ringing = true ∧ t.mode = .showSnooze) ∨
    ∃ d : Byte, i = .hwr 0x0F#8 d ∧ d.toNat ≤ 9 ∧ (t.mode, d) ∈ modeNumbers

/-- 20_memory.md R74, R86, 60_exceptions.md R314: which operations change which bytes of durable
storage. -/
def Obligations.StorageIsWrittenByStickAndHostOnly : Prop :=
  ∀ (i : Instr) (s t : State) (a : Nat), Memory.wf Config.hw s.nv = true → exec i s = .next t →
    Memory.read Config.hw t.nv a ≠ Memory.read Config.hw s.nv a →
      (i = .stick ∧ a ∈ [0x00, 0x01, 0x02, 0x05, 0x06, 0x07]) ∨
      ∃ p ∈ [(0x00#8, 0x02), (0x01#8, 0x01), (0x02#8, 0x00), (0x03#8, 0x05), (0x04#8, 0x06),
          (0x05#8, 0x07), (0x06#8, 0x04), (0x07#8, 0x03), (0x10#8, 0x08), (0x12#8, 0x0B),
          (0x15#8, 0x09), (0x16#8, 0x0A)], a = p.2 ∧ ∃ d, i = .hwr p.1 d

/-- 45_host.md R287: what no host access can reach. -/
def Obligations.HostCannotReachHiddenState : Prop :=
  ∀ (s : State) (a d : Byte), ∃ t u, exec (.hwr a d) s = .next t ∧ exec (.hrd a) s = .next u ∧
    ∀ x ∈ [t, u], x.mux = s.mux ∧ x.alarm.almDiv = s.alarm.almDiv ∧
      x.alarm.almswLvl = s.alarm.almswLvl ∧ x.dimmer.adcPending = s.dimmer.adcPending ∧
      x.inbox = s.inbox ∧
      ∀ id, (x.buttons.get id).st = (s.buttons.get id).st ∧
        (x.buttons.get id).cnt = (s.buttons.get id).cnt ∧
        (x.buttons.get id).pinLvl = (s.buttons.get id).pinLvl ∧
        (x.buttons.get id).rawPressed = (s.buttons.get id).rawPressed ∧
        (x.buttons.get id).held = (s.buttons.get id).held

/-- 60_exceptions.md R314: every writer of every field. The clause on `justPressed` being set is about
states in which no button but the repeatable one is in its grace window, as in every state that has the
invariant (10_state.md R25; `Button.Inv`). -/
def Obligations.EveryFieldHasItsWriters : Prop :=
  ∀ (i : Instr) (s t : State), exec i s = .next t → i ≠ .reset →
    let hwr := fun (addrs : List Byte) => ∃ a ∈ addrs, ∃ d, i = .hwr a d
    let disable := i = .almsw false ∨ ∃ d : Byte, i = .hwr 0x08#8 d ∧ d.getLsbD 0 = false
    (t.clock.second ≠ s.clock.second → i = .stick ∨ hwr [0x00#8]) ∧
    (t.clock.minute ≠ s.clock.minute → i = .stick ∨ hwr [0x01#8]) ∧
    (t.clock.hour ≠ s.clock.hour → i = .stick ∨ hwr [0x02#8]) ∧
    (t.clock.day ≠ s.clock.day → i = .stick ∨ hwr [0x03#8]) ∧
    (t.clock.month ≠ s.clock.month → i = .stick ∨ hwr [0x04#8]) ∧
    (t.clock.year ≠ s.clock.year → i = .stick ∨ hwr [0x05#8]) ∧
    (t.alarm.alarmH ≠ s.alarm.alarmH → hwr [0x07#8]) ∧
    (t.alarm.alarmM ≠ s.alarm.alarmM → hwr [0x06#8]) ∧
    (t.alarm.alarmEn ≠ s.alarm.alarmEn → (∃ l, i = .almsw l) ∨ hwr [0x08#8]) ∧
    (t.alarm.ringing ≠ s.alarm.ringing → i = .stick ∨ disable) ∧
    (t.alarm.snooze ≠ s.alarm.snooze → i = .stick ∨ i = .ftick ∨ disable) ∧
    (t.alarm.pulsePhase ≠ s.alarm.pulsePhase → i = .ftick ∨ disable) ∧
    (t.alarm.buzzerOn ≠ s.alarm.buzzerOn → i = .ftick ∨ disable) ∧
    (t.alarm.almDiv ≠ s.alarm.almDiv → i = .ftick) ∧
    (t.alarm.almswLvl ≠ s.alarm.almswLvl → ∃ l, i = .almsw l) ∧
    (∀ id, (t.buttons.get id).pinLvl ≠ (s.buttons.get id).pinLvl →
      ∃ l, i = .pin (buttonIndex id) l) ∧
    (∀ id, (t.buttons.get id).st ≠ (s.buttons.get id).st ∨
        (t.buttons.get id).cnt ≠ (s.buttons.get id).cnt ∨
        (t.buttons.get id).rawPressed ≠ (s.buttons.get id).rawPressed ∨
        (t.buttons.get id).held ≠ (s.buttons.get id).held →
      i = .ftick ∨ ∃ l, i = .pin (buttonIndex id) l) ∧
    (∀ id, ((s.buttons.get id).st = .grace → id = repeatBtn) →
      (s.buttons.get id).justPressed = false → (t.buttons.get id).justPressed = true →
      (i = .ftick ∧ id ≠ repeatBtn) ∨ (i = .pin (buttonIndex id) true ∧ id = repeatBtn)) ∧
    (∀ id, (s.buttons.get id).justPressed = true → (t.buttons.get id).justPressed = false →
      hwr [0x0D#8]) ∧
    (t.dispBuf ≠ s.dispBuf → i = .stick ∨ ∃ a : Byte, 0x20 ≤ a.toNat ∧
      a.toNat < 0x20 + Config.hw.nDigits ∧ hwr [a]) ∧
    (t.mode ≠ s.mode → i = .ftick ∨ hwr [0x0F#8]) ∧
    (t.dimmer.bright ≠ s.dimmer.bright → hwr [0x10#8]) ∧
    (t.dimmer.brightOut ≠ s.dimmer.brightOut → (∃ v, i = .adcdone v) ∨ hwr [0x10#8, 0x12#8]) ∧
    (t.dimmer.dimmerEn ≠ s.dimmer.dimmerEn → hwr [0x12#8]) ∧
    (t.dimmer.adcPending ≠ s.dimmer.adcPending → i = .stick ∨ ∃ v, i = .adcdone v) ∧
    (t.mux ≠ s.mux → i = .ftick) ∧
    (t.inact ≠ s.inact → i = .stick ∨ hwr [0x13#8]) ∧
    (t.timeUnknown ≠ s.timeUnknown → hwr [0x14#8]) ∧
    (t.volume ≠ s.volume → hwr [0x15#8]) ∧
    (t.region ≠ s.region → hwr [0x16#8]) ∧
    t.inbox = s.inbox

/-- 10_state.md R30: no rule's outcome depends on `adc_pending`. -/
def Obligations.AdcPendingIsNeverRead : Prop :=
  ∀ (i : Instr) (s t : State) (p : Bool), exec i s = .next t →
    ∃ q, exec i { s with dimmer := { s.dimmer with adcPending := p } } =
      .next { t with dimmer := { t.dimmer with adcPending := q } }

/-- 40_mux.md R134: what the multiplexer does depends on DISPBUF and its own registers alone. -/
def Obligations.MultiplexerReadsBufferAndItselfOnly : Prop :=
  ∀ s s' : State, s.mux = s'.mux → s.dispBuf = s'.dispBuf →
    ∃ t t', exec .ftick s = .next t ∧ exec .ftick s' = .next t' ∧ t.mux = t'.mux ∧
      t.outs.filter OutEvent.isDisp = t'.outs.filter OutEvent.isDisp

/-- 41_buttons.md R159: what FTICK makes of a button depends on that button and on `ringing` alone. -/
def Obligations.ButtonsAreIndependent : Prop :=
  ∀ (s s' : State) (id : ButtonId), s.buttons.get id = s'.buttons.get id →
    s.alarm.ringing = s'.alarm.ringing →
    ∃ t t', exec .ftick s = .next t ∧ exec .ftick s' = .next t' ∧
      t.buttons.get id = t'.buttons.get id

/-- 20_memory.md R88-R91: the legalisation functions. -/
def Obligations.LegalisationKeepsRanges : Prop :=
  (∀ (v : Byte) (m : Nat), 1 ≤ m → m ≤ 255 →
    (modN v m).toNat = v.toNat % m ∧ (modN v m).toNat < m) ∧
  (∀ (v : Byte) (m : Nat), m = 31 ∨ m = 12 →
    1 ≤ (wrap1 v m).toNat ∧ (wrap1 v m).toNat ≤ m ∧
    (1 ≤ v.toNat → v.toNat ≤ m → wrap1 v m = v) ∧
    (v = 0#8 → (wrap1 v m).toNat = m) ∧
    (m + 1 ≤ v.toNat → v.toNat ≤ 2 * m → (wrap1 v m).toNat = v.toNat - m)) ∧
  (∀ (c : Config) (v : Byte), c.Valid →
    BrightLevel c (clampq c v) ∧
    (v.toNat < c.brightMin → (clampq c v).toNat = c.brightMin) ∧
    (c.brightMax < v.toNat → (clampq c v).toNat = c.brightMax) ∧
    (c.brightMin ≤ v.toNat → v.toNat ≤ c.brightMax →
      (clampq c v).toNat ≤ v.toNat ∧ v.toNat < (clampq c v).toNat + c.brightStep)) ∧
  ∀ v : Byte, (flag1 v = true ↔ v.toNat % 2 = 1)

/-- 00_scope.md R6: the choices stand for the legal configurations and for no others. -/
def Obligations.ChoicesAreTheLegalConfigurations : Prop :=
  ∀ c : Config, c.Valid ↔ ∃ r : Config.Choices, Config.ofChoices r = c

/-- 60_exceptions.md R308, 30_encoding.md R108: events that coincide are delivered in the fixed order, each
once: the event of every strobe that is active and of every level that has changed, and no other. Every
one of them is an operation. Which level changes one instant brings is read off the levels before it (the
model's reading, notes/assumptions/10.md). -/
def Obligations.CoincidingEventsComeInOrder : Prop :=
  ∀ (before : Wires) (p : InPorts),
    ((p.events before).map portRank).Pairwise (· < ·) ∧
    (∀ i ∈ p.events before, i.wellFormed = true) ∧
    (∀ i, i ∈ p.events before ↔
      match i with
      | .reset => p.rst = true
      | .ftick => p.ftick = true
      | .stick => p.stick = true
      | .pin b l =>
        (b = 0#2 ∧ l = p.wires.btnA ∧ l ≠ before.btnA) ∨
        (b = 1#2 ∧ l = p.wires.btnB ∧ l ≠ before.btnB) ∨
        (b = 2#2 ∧ l = p.wires.btnC ∧ l ≠ before.btnC)
      | .adcdone v => p.adcDone = true ∧ v = p.adcData
      | .almsw l => l = p.wires.almSw ∧ l ≠ before.almSw
      | .hwr a d => p.hWe = true ∧ a = p.hAddr ∧ d = p.hWdata
      | .hrd a => p.hRe = true ∧ a = p.hAddr
      | .nop => False) ∧
    ∀ s : State, (deliverInstant before p s).inbox = s.inbox ++ (p.events before).map encode

/-- 30_encoding.md R107: the pseudo-operations and their expansions. -/
def Obligations.PseudoOperationsExpand : Prop :=
  (∀ (i : Instr) (n : Nat), (TraceLine.times i n).expand = List.replicate n i) ∧
  (∀ b, (TraceLine.press b).expand = [.pin b false] ∧ (TraceLine.release b).expand = [.pin b true]) ∧
  (∀ m, (TraceLine.jpclr m).expand = [.hwr 0x0D#8 m] ∧ (TraceLine.arm m).expand = [.hwr 0x13#8 m]) ∧
  ∀ p ∈ modeNumbers, (TraceLine.setmode p.1).expand = [.hwr 0x0F#8 p.2]
end

