-- ==== Sys2Proof/Laws/Config.lean ====
section
/-! SUPPORT. Every choice gives a legal configuration, so the hardware's is legal (00_scope.md R6). -/

namespace Sys2Proof

theorem Config.ofChoices_valid (r : Config.Choices) : (Config.ofChoices r).Valid where
  nDigits_pos := Nat.succ_pos _
  nDigits_le := by have := r.nDigitsLess1.isLt; simp only [Config.ofChoices]; omega
  muxDivider_pos := Nat.succ_pos _
  muxDivider_le := by have := r.muxDividerLess1.isLt; simp only [Config.ofChoices]; omega
  snoozeSecs_pos := Nat.succ_pos _
  snoozeSecs_le := by have := r.snoozeSecsLess1.isLt; simp only [Config.ofChoices]; omega
  debounceTicks_pos := Nat.succ_pos _
  debounceTicks_le := by have := r.debounceTicksLess1.isLt; simp only [Config.ofChoices]; omega
  graceTicks_pos := Nat.succ_pos _
  graceTicks_le := by have := r.graceTicksLess1.isLt; simp only [Config.ofChoices]; omega
  brightMin_le := Nat.le_add_right _ _
  brightMax_le := by
    have h1 := r.brightMin.isLt
    have h2 : min r.brightQuanta ((255 - r.brightMin.val) / (r.brightStepLess1 + 1)) *
        (r.brightStepLess1 + 1) ≤ 255 - r.brightMin.val :=
      le_trans (Nat.mul_le_mul_right _ (Nat.min_le_right _ _)) (Nat.div_mul_le_self _ _)
    simp only [Config.ofChoices]
    omega
  brightStep_pos := Nat.succ_pos _
  brightStep_dvd := by simp [Config.ofChoices]
  renderTime_length := by intros; simp [Config.ofChoices]

theorem Config.hw_valid : Config.hw.Valid := Config.ofChoices_valid _

end Sys2Proof
end

