-- ==== Sys2Proof/Laws/Decode.lean ====
section
/-! SUPPORT. The three fields of a word that is built from fields, and a word as its three fields
(30_encoding.md R100). -/

namespace Sys2Proof

/-- The number that three fields build. -/
theorem EventWord.make_toNat (op a d : Byte) :
    (EventWord.make op a d).toNat = (op.toNat * 256 + a.toNat) * 256 + d.toNat := by
  have h : ∀ x y : Nat, y < 256 → x <<< 8 ||| y = x * 256 + y := fun x y hy => by
    rw [← Nat.shiftLeft_add_eq_or_of_lt (by simpa using hy), Nat.shiftLeft_eq]
  show (op ++ a ++ d : BitVec (8 + 8 + 8)).toNat = _
  rw [BitVec.toNat_append, BitVec.toNat_append, h _ _ d.isLt, h _ _ a.isLt]

theorem EventWord.op_toNat (w : EventWord) : w.op.toNat = w.toNat / 65536 := by
  have := w.isLt
  simp only [EventWord.op, BitVec.extractLsb'_toNat, Nat.shiftRight_eq_div_pow]
  omega

theorem EventWord.a_toNat (w : EventWord) : w.a.toNat = w.toNat / 256 % 256 := by
  simp only [EventWord.a, BitVec.extractLsb'_toNat, Nat.shiftRight_eq_div_pow]

theorem EventWord.d_toNat (w : EventWord) : w.d.toNat = w.toNat % 256 := by
  simp only [EventWord.d, BitVec.extractLsb'_toNat, Nat.shiftRight_eq_div_pow]
  omega

@[simp] theorem EventWord.make_op (op a d : Byte) : (EventWord.make op a d).op = op := by
  apply BitVec.eq_of_toNat_eq
  rw [op_toNat, make_toNat]
  have := a.isLt; have := d.isLt
  omega

@[simp] theorem EventWord.make_a (op a d : Byte) : (EventWord.make op a d).a = a := by
  apply BitVec.eq_of_toNat_eq
  rw [a_toNat, make_toNat]
  have := a.isLt; have := d.isLt
  omega

@[simp] theorem EventWord.make_d (op a d : Byte) : (EventWord.make op a d).d = d := by
  apply BitVec.eq_of_toNat_eq
  rw [d_toNat, make_toNat]
  have := d.isLt
  omega

/-- A word is what its three fields build. -/
theorem EventWord.make_fields (w : EventWord) : EventWord.make w.op w.a w.d = w := by
  apply BitVec.eq_of_toNat_eq
  rw [make_toNat, op_toNat, a_toNat, d_toNat]
  omega

@[simp] theorem EventWord.and_op (w m : EventWord) :
    EventWord.op (w &&& m) = w.op &&& EventWord.op m := BitVec.extractLsb'_and

@[simp] theorem EventWord.and_a (w m : EventWord) :
    EventWord.a (w &&& m) = w.a &&& EventWord.a m := BitVec.extractLsb'_and

@[simp] theorem EventWord.and_d (w m : EventWord) :
    EventWord.d (w &&& m) = w.d &&& EventWord.d m := BitVec.extractLsb'_and

/-- Two words with the same three fields are the same word. -/
theorem EventWord.eq_of_fields {w k : EventWord} (h1 : w.op = k.op) (h2 : w.a = k.a)
    (h3 : w.d = k.d) : w = k := by
  rw [← EventWord.make_fields w, h1, h2, h3, EventWord.make_fields k]

end Sys2Proof
end

