-- ==== Sys2Proof/Laws/Memory.lean ====
section
/-! SUPPORT. Durable storage: reading after a write, and the canonical form (20_memory.md R72, R73). -/

namespace Sys2Proof.Machine

/-- What `Memory.wfFrom` says of a listed pair in front. -/
theorem Memory.wfFrom_cons {c : Config} {lo k : Nat} {w : Byte} {m : Memory} :
    Memory.wfFrom c lo ((k, w) :: m) = true ↔
      lo ≤ k ∧ k < 256 ∧ w ≠ Memory.unlisted c k ∧ Memory.wfFrom c (k + 1) m = true := by
  simp [Memory.wfFrom, and_assoc]

/-- A lower bound may be lowered. -/
theorem Memory.wfFrom_mono {c : Config} {lo lo' : Nat} {m : Memory} (hle : lo' ≤ lo)
    (h : Memory.wfFrom c lo m = true) : Memory.wfFrom c lo' m = true := by
  cases m with
  | nil => rfl
  | cons p m =>
    obtain ⟨k, w⟩ := p
    rw [Memory.wfFrom_cons] at h ⊢
    exact ⟨le_trans hle h.1, h.2⟩

/-- An address below every listed one reads as unlisted. -/
theorem Memory.read_below {c : Config} {m : Memory} : ∀ {lo a : Nat},
    Memory.wfFrom c lo m = true → a < lo → Memory.read c m a = Memory.unlisted c a := by
  induction m with
  | nil => intros; rfl
  | cons p m ih =>
    obtain ⟨k, w⟩ := p
    intro lo a h ha
    rw [Memory.wfFrom_cons] at h
    have hk : k ≠ a := by omega
    simp only [Memory.read, hk, if_false]
    exact ih h.2.2.2 (by omega)

/-- Putting a pair in front of storage whose addresses lie above it. -/
theorem Memory.read_consPair {c : Config} {m : Memory} {a : Nat} {v : Byte}
    (h : Memory.wfFrom c (a + 1) m = true) (b : Nat) :
    Memory.read c (Memory.cons c a v m) b = if b = a then v else Memory.read c m b := by
  unfold Memory.cons
  by_cases hb : b = a
  · subst hb
    by_cases hv : v = Memory.unlisted c b
    · simp [hv, Memory.read_below h (Nat.lt_succ_self b)]
    · simp [hv, Memory.read]
  · by_cases hv : v = Memory.unlisted c a
    · simp [hv, hb]
    · simp [hv, hb, Memory.read, Ne.symm hb]

theorem Memory.wfFrom_consPair {c : Config} {m : Memory} {lo a : Nat} {v : Byte} (hlo : lo ≤ a)
    (ha : a < 256) (h : Memory.wfFrom c (a + 1) m = true) :
    Memory.wfFrom c lo (Memory.cons c a v m) = true := by
  unfold Memory.cons
  split
  · exact Memory.wfFrom_mono (by omega) h
  · rw [Memory.wfFrom_cons]
    exact ⟨hlo, ha, by assumption, h⟩

/-- A read after a write: the byte written at its address, the old byte everywhere else. -/
theorem Memory.read_write_from {c : Config} {m : Memory} : ∀ {lo a : Nat} {v : Byte},
    Memory.wfFrom c lo m = true → ∀ b, Memory.read c (Memory.write c m a v) b =
      if b = a then v else Memory.read c m b := by
  induction m with
  | nil => intro lo a v _ b; exact Memory.read_consPair rfl b
  | cons p m ih =>
    obtain ⟨k, w⟩ := p
    intro lo a v h b
    have h' := Memory.wfFrom_cons.mp h
    unfold Memory.write
    by_cases h1 : a < k
    · rw [if_pos h1]
      exact Memory.read_consPair (Memory.wfFrom_cons.mpr ⟨h1, h'.2⟩) b
    · rw [if_neg h1]
      by_cases h2 : a = k
      · subst h2
        rw [if_pos rfl, Memory.read_consPair h'.2.2.2]
        by_cases hb : b = a
        · simp [hb]
        · simp [hb, Memory.read, Ne.symm hb]
      · rw [if_neg h2]
        by_cases hb : k = b
        · have hba : ¬ b = a := fun e => h2 (e.symm.trans hb.symm)
          simp [Memory.read, hb, hba]
        · simp only [Memory.read, if_neg hb]
          exact ih h'.2.2.2 b

/-- Every write keeps the canonical form. -/
theorem Memory.wfFrom_write {c : Config} {m : Memory} : ∀ {lo a : Nat} {v : Byte},
    lo ≤ a → a < 256 → Memory.wfFrom c lo m = true →
      Memory.wfFrom c lo (Memory.write c m a v) = true := by
  induction m with
  | nil => intro lo a v hlo ha _; exact Memory.wfFrom_consPair hlo ha rfl
  | cons p m ih =>
    obtain ⟨k, w⟩ := p
    intro lo a v hlo ha h
    have h' := Memory.wfFrom_cons.mp h
    unfold Memory.write
    by_cases h1 : a < k
    · rw [if_pos h1]
      exact Memory.wfFrom_consPair hlo ha (Memory.wfFrom_cons.mpr ⟨h1, h'.2⟩)
    · rw [if_neg h1]
      by_cases h2 : a = k
      · subst h2
        rw [if_pos rfl]
        exact Memory.wfFrom_consPair hlo ha h'.2.2.2
      · rw [if_neg h2, Memory.wfFrom_cons]
        exact ⟨h'.1, h'.2.1, h'.2.2.1, ih (by omega) ha h'.2.2.2⟩

/-- A read after a write, for storage in canonical form. -/
theorem Memory.read_write {c : Config} {m : Memory} (h : Memory.wf c m = true) (a b : Nat) (v : Byte) :
    Memory.read c (Memory.write c m a v) b = if b = a then v else Memory.read c m b :=
  Memory.read_write_from h b

theorem Memory.read_write_same {c : Config} {m : Memory} (h : Memory.wf c m = true) (a : Nat)
    (v : Byte) : Memory.read c (Memory.write c m a v) a = v := by rw [Memory.read_write h, if_pos rfl]

theorem Memory.read_write_other {c : Config} {m : Memory} (h : Memory.wf c m = true) {a b : Nat}
    (hb : b ≠ a) (v : Byte) : Memory.read c (Memory.write c m a v) b = Memory.read c m b := by
  rw [Memory.read_write h, if_neg hb]

/-- The one memory operation that changes storage keeps the canonical form. -/
theorem Memory.wf_write {c : Config} {m : Memory} (h : Memory.wf c m = true) (a v : Byte) :
    Memory.wf c (Memory.write c m a.toNat v) = true :=
  Memory.wfFrom_write (Nat.zero_le _) a.isLt h

@[simp] theorem Memory.wf_nil (c : Config) : Memory.wf c [] = true := rfl

/-- Equal memories are equal data: two canonical storages that read alike everywhere are equal. -/
theorem Memory.eq_of_read_eq {c : Config} : ∀ {lo : Nat} {m m' : Memory},
    Memory.wfFrom c lo m = true → Memory.wfFrom c lo m' = true →
      (∀ a, Memory.read c m a = Memory.read c m' a) → m = m' := by
  intro lo m
  induction m generalizing lo with
  | nil =>
    intro m' _ h' heq
    cases m' with
    | nil => rfl
    | cons p m' =>
      obtain ⟨k, w⟩ := p
      have h2 := Memory.wfFrom_cons.mp h'
      have := heq k
      simp [Memory.read] at this
      exact absurd this.symm h2.2.2.1
  | cons p m ih =>
    obtain ⟨k, w⟩ := p
    intro m' h h' heq
    have h1 := Memory.wfFrom_cons.mp h
    cases m' with
    | nil =>
      have := heq k
      simp [Memory.read] at this
      exact absurd this h1.2.2.1
    | cons p' m' =>
      obtain ⟨k', w'⟩ := p'
      have h2 := Memory.wfFrom_cons.mp h'
      rcases Nat.lt_trichotomy k k' with hlt | heqk | hgt
      · have e := heq k
        rw [Memory.read_below (Memory.wfFrom_cons.mpr ⟨hlt, h2.2⟩) (Nat.lt_succ_self k)] at e
        simp [Memory.read] at e
        exact absurd e h1.2.2.1
      · subst heqk
        have e := heq k
        simp [Memory.read] at e
        subst e
        have : m = m' := ih h1.2.2.2 h2.2.2.2 fun a => by
          by_cases ha : k = a
          · subst ha
            rw [Memory.read_below h1.2.2.2 (Nat.lt_succ_self k),
              Memory.read_below h2.2.2.2 (Nat.lt_succ_self k)]
          · have := heq a
            simpa [Memory.read, ha] using this
        rw [this]
      · have e := heq k'
        rw [Memory.read_below (Memory.wfFrom_cons.mpr ⟨hgt, h1.2⟩) (Nat.lt_succ_self k')] at e
        simp [Memory.read] at e
        exact absurd e.symm h2.2.2.1

end Sys2Proof.Machine
end

