-- ==== Sys2Proof/Laws/State.lean ====
section
/-! SUPPORT. The small lemmas of the state: one per field per named update, and of the button triple. -/

namespace Sys2Proof.Machine

@[simp] theorem startOp_clock (s : State) : (startOp s).clock = s.clock := rfl
@[simp] theorem startOp_alarm (s : State) : (startOp s).alarm = s.alarm := rfl
@[simp] theorem startOp_buttons (s : State) : (startOp s).buttons = s.buttons := rfl
@[simp] theorem startOp_mux (s : State) : (startOp s).mux = s.mux := rfl
@[simp] theorem startOp_dimmer (s : State) : (startOp s).dimmer = s.dimmer := rfl
@[simp] theorem startOp_dispBuf (s : State) : (startOp s).dispBuf = s.dispBuf := rfl
@[simp] theorem startOp_mode (s : State) : (startOp s).mode = s.mode := rfl
@[simp] theorem startOp_timeUnknown (s : State) : (startOp s).timeUnknown = s.timeUnknown := rfl
@[simp] theorem startOp_inact (s : State) : (startOp s).inact = s.inact := rfl
@[simp] theorem startOp_volume (s : State) : (startOp s).volume = s.volume := rfl
@[simp] theorem startOp_region (s : State) : (startOp s).region = s.region := rfl
@[simp] theorem startOp_nv (s : State) : (startOp s).nv = s.nv := rfl
@[simp] theorem startOp_outs (s : State) : (startOp s).outs = [] := rfl
@[simp] theorem startOp_inbox (s : State) : (startOp s).inbox = s.inbox := rfl

@[simp] theorem emit_clock (e : OutEvent) (s : State) : (emit e s).clock = s.clock := rfl
@[simp] theorem emit_alarm (e : OutEvent) (s : State) : (emit e s).alarm = s.alarm := rfl
@[simp] theorem emit_buttons (e : OutEvent) (s : State) : (emit e s).buttons = s.buttons := rfl
@[simp] theorem emit_mux (e : OutEvent) (s : State) : (emit e s).mux = s.mux := rfl
@[simp] theorem emit_dimmer (e : OutEvent) (s : State) : (emit e s).dimmer = s.dimmer := rfl
@[simp] theorem emit_dispBuf (e : OutEvent) (s : State) : (emit e s).dispBuf = s.dispBuf := rfl
@[simp] theorem emit_mode (e : OutEvent) (s : State) : (emit e s).mode = s.mode := rfl
@[simp] theorem emit_timeUnknown (e : OutEvent) (s : State) : (emit e s).timeUnknown = s.timeUnknown := rfl
@[simp] theorem emit_inact (e : OutEvent) (s : State) : (emit e s).inact = s.inact := rfl
@[simp] theorem emit_volume (e : OutEvent) (s : State) : (emit e s).volume = s.volume := rfl
@[simp] theorem emit_region (e : OutEvent) (s : State) : (emit e s).region = s.region := rfl
@[simp] theorem emit_nv (e : OutEvent) (s : State) : (emit e s).nv = s.nv := rfl
@[simp] theorem emit_outs (e : OutEvent) (s : State) : (emit e s).outs = s.outs ++ [e] := rfl
@[simp] theorem emit_inbox (e : OutEvent) (s : State) : (emit e s).inbox = s.inbox := rfl

@[simp] theorem nvWrite_clock (c : Config) (a v : Byte) (s : State) : (nvWrite c a v s).clock = s.clock := rfl
@[simp] theorem nvWrite_alarm (c : Config) (a v : Byte) (s : State) : (nvWrite c a v s).alarm = s.alarm := rfl
@[simp] theorem nvWrite_buttons (c : Config) (a v : Byte) (s : State) : (nvWrite c a v s).buttons = s.buttons := rfl
@[simp] theorem nvWrite_mux (c : Config) (a v : Byte) (s : State) : (nvWrite c a v s).mux = s.mux := rfl
@[simp] theorem nvWrite_dimmer (c : Config) (a v : Byte) (s : State) : (nvWrite c a v s).dimmer = s.dimmer := rfl
@[simp] theorem nvWrite_dispBuf (c : Config) (a v : Byte) (s : State) : (nvWrite c a v s).dispBuf = s.dispBuf := rfl
@[simp] theorem nvWrite_mode (c : Config) (a v : Byte) (s : State) : (nvWrite c a v s).mode = s.mode := rfl
@[simp] theorem nvWrite_timeUnknown (c : Config) (a v : Byte) (s : State) : (nvWrite c a v s).timeUnknown = s.timeUnknown := rfl
@[simp] theorem nvWrite_inact (c : Config) (a v : Byte) (s : State) : (nvWrite c a v s).inact = s.inact := rfl
@[simp] theorem nvWrite_volume (c : Config) (a v : Byte) (s : State) : (nvWrite c a v s).volume = s.volume := rfl
@[simp] theorem nvWrite_region (c : Config) (a v : Byte) (s : State) : (nvWrite c a v s).region = s.region := rfl
@[simp] theorem nvWrite_nv (c : Config) (a v : Byte) (s : State) : (nvWrite c a v s).nv = Memory.write c s.nv a.toNat v := rfl
@[simp] theorem nvWrite_outs (c : Config) (a v : Byte) (s : State) : (nvWrite c a v s).outs = s.outs ++ [.nvw a v] := rfl
@[simp] theorem nvWrite_inbox (c : Config) (a v : Byte) (s : State) : (nvWrite c a v s).inbox = s.inbox := rfl

@[simp] theorem setButton_clock (id : ButtonId) (x : Button) (s : State) : (setButton id x s).clock = s.clock := rfl
@[simp] theorem setButton_alarm (id : ButtonId) (x : Button) (s : State) : (setButton id x s).alarm = s.alarm := rfl
@[simp] theorem setButton_buttons (id : ButtonId) (x : Button) (s : State) : (setButton id x s).buttons = s.buttons.set id x := rfl
@[simp] theorem setButton_mux (id : ButtonId) (x : Button) (s : State) : (setButton id x s).mux = s.mux := rfl
@[simp] theorem setButton_dimmer (id : ButtonId) (x : Button) (s : State) : (setButton id x s).dimmer = s.dimmer := rfl
@[simp] theorem setButton_dispBuf (id : ButtonId) (x : Button) (s : State) : (setButton id x s).dispBuf = s.dispBuf := rfl
@[simp] theorem setButton_mode (id : ButtonId) (x : Button) (s : State) : (setButton id x s).mode = s.mode := rfl
@[simp] theorem setButton_timeUnknown (id : ButtonId) (x : Button) (s : State) : (setButton id x s).timeUnknown = s.timeUnknown := rfl
@[simp] theorem setButton_inact (id : ButtonId) (x : Button) (s : State) : (setButton id x s).inact = s.inact := rfl
@[simp] theorem setButton_volume (id : ButtonId) (x : Button) (s : State) : (setButton id x s).volume = s.volume := rfl
@[simp] theorem setButton_region (id : ButtonId) (x : Button) (s : State) : (setButton id x s).region = s.region := rfl
@[simp] theorem setButton_nv (id : ButtonId) (x : Button) (s : State) : (setButton id x s).nv = s.nv := rfl
@[simp] theorem setButton_outs (id : ButtonId) (x : Button) (s : State) : (setButton id x s).outs = s.outs := rfl
@[simp] theorem setButton_inbox (id : ButtonId) (x : Button) (s : State) : (setButton id x s).inbox = s.inbox := rfl

@[simp] theorem setIndicator_clock (c : Config) (f : Bool) (s : State) : (setIndicator c f s).clock = s.clock := rfl
@[simp] theorem setIndicator_alarm (c : Config) (f : Bool) (s : State) : (setIndicator c f s).alarm = s.alarm := rfl
@[simp] theorem setIndicator_buttons (c : Config) (f : Bool) (s : State) : (setIndicator c f s).buttons = s.buttons := rfl
@[simp] theorem setIndicator_mux (c : Config) (f : Bool) (s : State) : (setIndicator c f s).mux = s.mux := rfl
@[simp] theorem setIndicator_dimmer (c : Config) (f : Bool) (s : State) : (setIndicator c f s).dimmer = s.dimmer := rfl
@[simp] theorem setIndicator_dispBuf (c : Config) (f : Bool) (s : State) : (setIndicator c f s).dispBuf = s.dispBuf.modifyHead fun v => putBit v c.indAlarmBit f := rfl
@[simp] theorem setIndicator_mode (c : Config) (f : Bool) (s : State) : (setIndicator c f s).mode = s.mode := rfl
@[simp] theorem setIndicator_timeUnknown (c : Config) (f : Bool) (s : State) : (setIndicator c f s).timeUnknown = s.timeUnknown := rfl
@[simp] theorem setIndicator_inact (c : Config) (f : Bool) (s : State) : (setIndicator c f s).inact = s.inact := rfl
@[simp] theorem setIndicator_volume (c : Config) (f : Bool) (s : State) : (setIndicator c f s).volume = s.volume := rfl
@[simp] theorem setIndicator_region (c : Config) (f : Bool) (s : State) : (setIndicator c f s).region = s.region := rfl
@[simp] theorem setIndicator_nv (c : Config) (f : Bool) (s : State) : (setIndicator c f s).nv = s.nv := rfl
@[simp] theorem setIndicator_outs (c : Config) (f : Bool) (s : State) : (setIndicator c f s).outs = s.outs := rfl
@[simp] theorem setIndicator_inbox (c : Config) (f : Bool) (s : State) : (setIndicator c f s).inbox = s.inbox := rfl

@[simp] theorem alarmEnable_clock (s : State) : (alarmEnable s).clock = s.clock := rfl
@[simp] theorem alarmEnable_alarm (s : State) : (alarmEnable s).alarm = { s.alarm with alarmEn := true } := rfl
@[simp] theorem alarmEnable_buttons (s : State) : (alarmEnable s).buttons = s.buttons := rfl
@[simp] theorem alarmEnable_mux (s : State) : (alarmEnable s).mux = s.mux := rfl
@[simp] theorem alarmEnable_dimmer (s : State) : (alarmEnable s).dimmer = s.dimmer := rfl
@[simp] theorem alarmEnable_dispBuf (s : State) : (alarmEnable s).dispBuf = s.dispBuf := rfl
@[simp] theorem alarmEnable_mode (s : State) : (alarmEnable s).mode = s.mode := rfl
@[simp] theorem alarmEnable_timeUnknown (s : State) : (alarmEnable s).timeUnknown = s.timeUnknown := rfl
@[simp] theorem alarmEnable_inact (s : State) : (alarmEnable s).inact = s.inact := rfl
@[simp] theorem alarmEnable_volume (s : State) : (alarmEnable s).volume = s.volume := rfl
@[simp] theorem alarmEnable_region (s : State) : (alarmEnable s).region = s.region := rfl
@[simp] theorem alarmEnable_nv (s : State) : (alarmEnable s).nv = s.nv := rfl
@[simp] theorem alarmEnable_outs (s : State) : (alarmEnable s).outs = s.outs := rfl
@[simp] theorem alarmEnable_inbox (s : State) : (alarmEnable s).inbox = s.inbox := rfl

@[simp] theorem deliverFirst_clock (w : EventWord) (s : State) : (deliverFirst w s).clock = s.clock := rfl
@[simp] theorem deliverFirst_alarm (w : EventWord) (s : State) : (deliverFirst w s).alarm = s.alarm := rfl
@[simp] theorem deliverFirst_buttons (w : EventWord) (s : State) : (deliverFirst w s).buttons = s.buttons := rfl
@[simp] theorem deliverFirst_mux (w : EventWord) (s : State) : (deliverFirst w s).mux = s.mux := rfl
@[simp] theorem deliverFirst_dimmer (w : EventWord) (s : State) : (deliverFirst w s).dimmer = s.dimmer := rfl
@[simp] theorem deliverFirst_dispBuf (w : EventWord) (s : State) : (deliverFirst w s).dispBuf = s.dispBuf := rfl
@[simp] theorem deliverFirst_mode (w : EventWord) (s : State) : (deliverFirst w s).mode = s.mode := rfl
@[simp] theorem deliverFirst_timeUnknown (w : EventWord) (s : State) : (deliverFirst w s).timeUnknown = s.timeUnknown := rfl
@[simp] theorem deliverFirst_inact (w : EventWord) (s : State) : (deliverFirst w s).inact = s.inact := rfl
@[simp] theorem deliverFirst_volume (w : EventWord) (s : State) : (deliverFirst w s).volume = s.volume := rfl
@[simp] theorem deliverFirst_region (w : EventWord) (s : State) : (deliverFirst w s).region = s.region := rfl
@[simp] theorem deliverFirst_nv (w : EventWord) (s : State) : (deliverFirst w s).nv = s.nv := rfl
@[simp] theorem deliverFirst_outs (w : EventWord) (s : State) : (deliverFirst w s).outs = s.outs := rfl
@[simp] theorem deliverFirst_inbox (w : EventWord) (s : State) : (deliverFirst w s).inbox = w :: s.inbox := rfl

@[simp] theorem deliver_clock (ws : List EventWord) (s : State) : (deliver ws s).clock = s.clock := rfl
@[simp] theorem deliver_alarm (ws : List EventWord) (s : State) : (deliver ws s).alarm = s.alarm := rfl
@[simp] theorem deliver_buttons (ws : List EventWord) (s : State) : (deliver ws s).buttons = s.buttons := rfl
@[simp] theorem deliver_mux (ws : List EventWord) (s : State) : (deliver ws s).mux = s.mux := rfl
@[simp] theorem deliver_dimmer (ws : List EventWord) (s : State) : (deliver ws s).dimmer = s.dimmer := rfl
@[simp] theorem deliver_dispBuf (ws : List EventWord) (s : State) : (deliver ws s).dispBuf = s.dispBuf := rfl
@[simp] theorem deliver_mode (ws : List EventWord) (s : State) : (deliver ws s).mode = s.mode := rfl
@[simp] theorem deliver_timeUnknown (ws : List EventWord) (s : State) : (deliver ws s).timeUnknown = s.timeUnknown := rfl
@[simp] theorem deliver_inact (ws : List EventWord) (s : State) : (deliver ws s).inact = s.inact := rfl
@[simp] theorem deliver_volume (ws : List EventWord) (s : State) : (deliver ws s).volume = s.volume := rfl
@[simp] theorem deliver_region (ws : List EventWord) (s : State) : (deliver ws s).region = s.region := rfl
@[simp] theorem deliver_nv (ws : List EventWord) (s : State) : (deliver ws s).nv = s.nv := rfl
@[simp] theorem deliver_outs (ws : List EventWord) (s : State) : (deliver ws s).outs = s.outs := rfl
@[simp] theorem deliver_inbox (ws : List EventWord) (s : State) : (deliver ws s).inbox = s.inbox ++ ws := rfl

@[simp] theorem Buttons.get_set_same (bs : Buttons) (id : ButtonId) (x : Button) :
    (bs.set id x).get id = x := by cases id <;> rfl

theorem Buttons.get_set_other (bs : Buttons) (id j : ButtonId) (x : Button) (h : j ≠ id) :
    (bs.set id x).get j = bs.get j := by cases id <;> cases j <;> first | rfl | exact absurd rfl h

@[simp] theorem Buttons.set_set (bs : Buttons) (id : ButtonId) (x y : Button) :
    (bs.set id x).set id y = bs.set id y := by cases id <;> rfl

theorem Buttons.get_set (bs : Buttons) (id j : ButtonId) (x : Button) :
    (bs.set id x).get j = if j = id then x else bs.get j := by cases id <;> cases j <;> rfl

@[simp] theorem Buttons.set_get (bs : Buttons) (id : ButtonId) : bs.set id (bs.get id) = bs := by
  cases id <;> rfl

/-- Two triples that agree on every button are equal. -/
theorem Buttons.ext_get {bs bs' : Buttons} (h : ∀ id, bs.get id = bs'.get id) : bs = bs' := by
  obtain ⟨a, b, c⟩ := bs
  obtain ⟨a', b', c'⟩ := bs'
  have ha := h .a
  have hb := h .b
  have hc := h .c
  simp only [Buttons.get] at ha hb hc
  rw [ha, hb, hc]

@[simp] theorem Buttons.get_cleared (pin : ButtonId → Bool) (id : ButtonId) :
    (Buttons.cleared pin).get id = Button.cleared (pin id) := by cases id <;> rfl

end Sys2Proof.Machine
end

