-- ==== Sys2Proof/Laws/Ops.lean ====
section
/-! SUPPORT. One lemma per shared operation that says once everything it does, for later proofs to cite
instead of unfolding it. -/

namespace Sys2Proof.Machine

/-- Every write to durable storage keeps its canonical form (20_memory.md R72). -/
theorem nvWrite_wf {c : Config} {s : State} (h : Memory.wf c s.nv = true) (a v : Byte) :
    Memory.wf c (nvWrite c a v s).nv = true := Memory.wf_write h a v

/-- What is read after a write to durable storage (20_memory.md R72). -/
theorem nvWrite_read {c : Config} {s : State} (h : Memory.wf c s.nv = true) (a v : Byte) (b : Nat) :
    Memory.read c (nvWrite c a v s).nv b = if b = a.toNat then v else Memory.read c s.nv b :=
  Memory.read_write h a.toNat b v

/-- StoreThrough: the field as `setField` sets it, the byte in storage, one listed write (45_host.md
R272). -/
theorem storeThrough_eq (c : Config) (setField : Byte → State → State) (a v : Byte) (s : State) :
    storeThrough c setField a v s =
      { setField v s with
        nv := Memory.write c (setField v s).nv a.toNat v
        outs := (setField v s).outs ++ [.nvw a v] } := rfl

/-- BuzzerOff: pulse and buzzer off, reported where the pulse was on (43_alarm.md R228). -/
theorem buzzerOff_eq (c : Config) (s : State) :
    buzzerOff c s =
      { s with
        alarm := { s.alarm with
          pulsePhase := false
          buzzerOn := s.alarm.buzzerOn && !s.alarm.pulsePhase }
        outs := s.outs ++ if s.alarm.pulsePhase then [.buzz false c.buzzPeriod] else [] } := by
  rcases s with ⟨_, ⟨_, _, _, _, p, _, _, _, _⟩, _⟩
  cases p <;> simp [buzzerOff, emit]

/-- SnoozeTrigger: the countdown loaded, the mode forced, the buzzer off (43_alarm.md R227). -/
theorem snoozeTrigger_eq (c : Config) (s : State) :
    snoozeTrigger c s =
      { s with
        alarm := { s.alarm with
          snooze := BitVec.ofNat 16 c.snoozeSecs
          pulsePhase := false
          buzzerOn := s.alarm.buzzerOn && !s.alarm.pulsePhase }
        mode := .showSnooze
        outs := s.outs ++ if s.alarm.pulsePhase then [.buzz false c.buzzPeriod] else [] } := by
  rw [snoozeTrigger, buzzerOff_eq]

/-- AlarmDisable: the alarm's run-time state cleared, the buzzer off (43_alarm.md R232). -/
theorem alarmDisable_eq (c : Config) (s : State) :
    alarmDisable c s =
      { s with
        alarm := { s.alarm with
          alarmEn := false
          ringing := false
          snooze := 0#16
          pulsePhase := false
          buzzerOn := s.alarm.buzzerOn && !s.alarm.pulsePhase }
        outs := s.outs ++ if s.alarm.pulsePhase then [.buzz false c.buzzPeriod] else [] } := by
  rw [alarmDisable, buzzerOff_eq]

/-- Driving a brightness level: the output takes it, reported where it is new (44_dimmer.md R252). -/
theorem driveBright_eq (level : Byte) (s : State) :
    driveBright level s =
      { s with
        dimmer := { s.dimmer with brightOut := level }
        outs := s.outs ++ if s.dimmer.brightOut = level then [] else [.bright level] } := by
  unfold driveBright
  split
  · next h => subst h; simp
  · rfl

/-- MuxStep: a count, or on the wrapping tick a firing (40_mux.md R131, R132). -/
theorem muxStep_eq (c : Config) (s : State) :
    muxStep c s =
      { s with
        mux :=
          if s.mux.muxDiv.toNat = c.muxDivider - 1 then
            { digitIdx := nextDigit c s.mux.digitIdx
              muxDiv := 0#16
              dispIdxO := s.mux.digitIdx
              dispSegO := dispByte s s.mux.digitIdx.toNat
              dispValidO := true }
          else { s.mux with muxDiv := s.mux.muxDiv + 1#16 }
        outs := s.outs ++
          if s.mux.muxDiv.toNat = c.muxDivider - 1 then
            [.disp s.mux.digitIdx (dispByte s s.mux.digitIdx.toNat)]
          else [] } := by
  unfold muxStep
  split
  · rfl
  · simp

/-- MuxStep changes the multiplexer and the output list only (40_mux.md R134). -/
theorem muxStep_frame (c : Config) (s : State) :
    muxStep c s = { s with mux := (muxStep c s).mux, outs := (muxStep c s).outs } := by
  rw [muxStep_eq]

/-- AlmStep: the divider, and on its expiry the pulse and the buzzer (43_alarm.md R224). -/
theorem almStep_eq (c : Config) (s : State) :
    almStep c s =
      { s with
        alarm := { s.alarm with
          almDiv :=
            if s.alarm.ringing = true ∧ s.alarm.snooze = 0#16 then
              (if s.alarm.almDiv.toNat = almDivider - 1 then 0#8 else s.alarm.almDiv + 1#8)
            else s.alarm.almDiv
          pulsePhase :=
            if s.alarm.ringing = true ∧ s.alarm.snooze = 0#16 ∧
                s.alarm.almDiv.toNat = almDivider - 1 then !s.alarm.pulsePhase
            else s.alarm.pulsePhase
          buzzerOn :=
            if s.alarm.ringing = true ∧ s.alarm.snooze = 0#16 ∧
                s.alarm.almDiv.toNat = almDivider - 1 then !s.alarm.pulsePhase
            else s.alarm.buzzerOn }
        outs := s.outs ++
          if s.alarm.ringing = true ∧ s.alarm.snooze = 0#16 ∧
              s.alarm.almDiv.toNat = almDivider - 1 then
            [.buzz (!s.alarm.pulsePhase) c.buzzPeriod]
          else [] } := by
  rcases s with ⟨_, ⟨_, _, _, r, _, n, d, _, _⟩, _⟩
  cases r <;> by_cases h2 : n = 0#16 <;> by_cases h3 : d.toNat = almDivider - 1 <;>
    simp [almStep, pulseFlip, emit, h2, h3]

/-- AlmStep changes the pulse divider, the pulse, the buzzer and the output list only (43_alarm.md
R224). -/
theorem almStep_frame (c : Config) (s : State) :
    almStep c s =
      { s with
        alarm := { s.alarm with
          almDiv := (almStep c s).alarm.almDiv
          pulsePhase := (almStep c s).alarm.pulsePhase
          buzzerOn := (almStep c s).alarm.buzzerOn }
        outs := (almStep c s).outs } := by
  rw [almStep_eq]

/-- What BtnStep makes of the button itself, `ringing` being the alarm's flag (41_buttons.md
R154-R157). -/
def btnAfter (c : Config) (id : ButtonId) (ringing : Bool) (x : Button) : Button :=
  match x.st with
  | .settle =>
    if x.cnt.toNat + 1 = c.debounceTicks then
      if x.pinLvl = true ∨ ringing = true then { x with st := .idle }
      else if id = repeatBtn then { x with rawPressed := true, st := .grace, cnt := 0#16 }
      else { x with rawPressed := true, st := .down, justPressed := true }
    else { x with cnt := x.cnt + 1#16 }
  | .grace =>
    if x.cnt.toNat + 1 = c.graceTicks then { x with held := true, st := .held }
    else { x with cnt := x.cnt + 1#16 }
  | .idle => x
  | .down => x
  | .held => x

/-- BtnStep: the button moves on; a confirmed press is reported, and while the alarm rings it triggers
the snooze (41_buttons.md R154-R157). -/
theorem btnStep_eq (c : Config) (id : ButtonId) (s : State) :
    btnStep c id s =
      let s1 := setButton id (btnAfter c id s.alarm.ringing (s.buttons.get id)) s
      if (s.buttons.get id).confirms c then
        if s.alarm.ringing then snoozeTrigger c (emit .click s1) else emit .click s1
      else s1 := by
  have hset : setButton id (s.buttons.get id) s = s := by simp [setButton]
  unfold btnStep btnAfter Button.confirms
  cases hst : (s.buttons.get id).st with
  | idle => simp [hst, hset]
  | down => simp [hst, hset]
  | held => simp [hst, hset]
  | grace => simp only [hst]; split <;> rfl
  | settle =>
    by_cases h1 : (s.buttons.get id).cnt.toNat + 1 = c.debounceTicks
    · cases hp : (s.buttons.get id).pinLvl
      · cases hr : s.alarm.ringing
        · by_cases h3 : id = repeatBtn
          · subst h3; simp [hst, h1, hp, confirm, hr, setButton, emit]
          · simp [hst, h1, hp, h3, confirm, hr, setButton, emit]
        · simp [hst, h1, hp, confirm, hr, setButton, emit]
      · simp [hst, h1, hp]
    · simp [hst, h1]

theorem btnStep_buttons (c : Config) (id : ButtonId) (s : State) :
    (btnStep c id s).buttons =
      s.buttons.set id (btnAfter c id s.alarm.ringing (s.buttons.get id)) := by
  rw [btnStep_eq]
  simp only
  split
  · split <;> simp [snoozeTrigger_eq]
  · rfl

theorem btnStep_alarm (c : Config) (id : ButtonId) (s : State) :
    (btnStep c id s).alarm =
      if s.alarm.ringing = true ∧ (s.buttons.get id).confirms c = true then
        { s.alarm with
          snooze := BitVec.ofNat 16 c.snoozeSecs
          pulsePhase := false
          buzzerOn := s.alarm.buzzerOn && !s.alarm.pulsePhase }
      else s.alarm := by
  rw [btnStep_eq]
  cases h1 : (s.buttons.get id).confirms c <;> cases h2 : s.alarm.ringing <;>
    simp [snoozeTrigger_eq]

theorem btnStep_mode (c : Config) (id : ButtonId) (s : State) :
    (btnStep c id s).mode =
      if s.alarm.ringing = true ∧ (s.buttons.get id).confirms c = true then .showSnooze
      else s.mode := by
  rw [btnStep_eq]
  cases h1 : (s.buttons.get id).confirms c <;> cases h2 : s.alarm.ringing <;>
    simp [snoozeTrigger_eq]

theorem btnStep_outs (c : Config) (id : ButtonId) (s : State) :
    (btnStep c id s).outs =
      if (s.buttons.get id).confirms c = true then
        s.outs ++ .click ::
          if s.alarm.ringing = true ∧ s.alarm.pulsePhase = true then [.buzz false c.buzzPeriod]
          else []
      else s.outs := by
  rw [btnStep_eq]
  cases h1 : (s.buttons.get id).confirms c <;> cases h2 : s.alarm.ringing <;>
    cases h3 : s.alarm.pulsePhase <;> simp [snoozeTrigger_eq, h3]

/-- BtnStep changes the buttons, the alarm, the mode and the output list only (60_exceptions.md R314). -/
theorem btnStep_frame (c : Config) (id : ButtonId) (s : State) :
    btnStep c id s =
      { s with
        buttons := (btnStep c id s).buttons
        alarm := (btnStep c id s).alarm
        mode := (btnStep c id s).mode
        outs := (btnStep c id s).outs } := by
  rw [btnStep_eq]
  simp only
  split
  · split
    · simp [snoozeTrigger_eq, setButton, emit]
    · rfl
  · rfl

/-- BtnStep leaves `ringing` as it is (43_alarm.md R226). -/
@[simp] theorem btnStep_ringing (c : Config) (id : ButtonId) (s : State) :
    (btnStep c id s).alarm.ringing = s.alarm.ringing := by rw [btnStep_alarm]; split <;> rfl

/-- NvWriteThrough changes durable storage and the output list only (42_rtc.md R185). -/
theorem nvWriteThrough_frame (c : Config) (old : Clock) (s : State) :
    nvWriteThrough c old s =
      { s with nv := (nvWriteThrough c old s).nv, outs := (nvWriteThrough c old s).outs } := by
  have step : ∀ (a o n : Byte) (u : State), ∃ m l,
      nvWriteChanged c a o n u = { u with nv := m, outs := l } := by
    intro a o n u
    unfold nvWriteChanged
    split
    · exact ⟨u.nv, u.outs, rfl⟩
    · exact ⟨_, _, rfl⟩
  unfold nvWriteThrough
  simp only
  split
  · rfl
  · obtain ⟨m1, l1, h1⟩ := step 0x02#8 old.second s.clock.second s
    obtain ⟨m2, l2, h2⟩ := step 0x01#8 old.minute s.clock.minute
      (nvWriteChanged c 0x02#8 old.second s.clock.second s)
    obtain ⟨m3, l3, h3⟩ := step 0x00#8 old.hour s.clock.hour
      (nvWriteChanged c 0x01#8 old.minute s.clock.minute
        (nvWriteChanged c 0x02#8 old.second s.clock.second s))
    rw [h1] at h2 h3
    rw [h2] at h3
    rw [h1, h2, h3]
    simp only
    generalize hu : ({ s with nv := m3, outs := l3 } : State) = u
    obtain ⟨m4, l4, h4⟩ := step 0x05#8 old.day s.clock.day u
    rw [h4]
    obtain ⟨m5, l5, h5⟩ := step 0x06#8 old.month s.clock.month { u with nv := m4, outs := l4 }
    rw [h5]
    obtain ⟨m6, l6, h6⟩ := step 0x07#8 old.year s.clock.year { u with nv := m5, outs := l5 }
    rw [h6, ← hu]

/-- Render: DISPBUF rendered anew, with the indicator, in ShowTime; nothing else (42_rtc.md R186,
R187). -/
theorem render_eq (c : Config) (s : State) :
    render c s =
      { s with
        dispBuf :=
          if s.mode = .showTime then
            (c.renderTime s.clock.hour s.clock.minute s.clock.second s.region
              (unkPhase s.timeUnknown s.clock.second)).modifyHead fun v =>
                putBit v c.indAlarmBit s.alarm.alarmEn
          else s.dispBuf } := by
  unfold render
  split <;> rfl

/-- AlarmCheck: ringing and no snooze where the trigger condition holds (43_alarm.md R220). -/
theorem alarmCheck_eq (s : State) :
    alarmCheck s =
      { s with
        alarm :=
          if s.alarm.Triggers s.clock then { s.alarm with ringing := true, snooze := 0#16 }
          else s.alarm } := by
  unfold alarmCheck
  split
  · rfl
  · rfl

/-- SnoozeStep: the countdown, and the indicator on the parity of what it leaves (43_alarm.md R221). -/
theorem snoozeStep_eq (c : Config) (s : State) :
    snoozeStep c s =
      { s with
        alarm := { s.alarm with
          snooze := if s.alarm.snooze = 0#16 then 0#16 else s.alarm.snooze - 1#16 }
        dispBuf :=
          if s.alarm.snooze = 0#16 then s.dispBuf
          else s.dispBuf.modifyHead fun v =>
            putBit v c.indAlarmBit (snoozeBlink (s.alarm.snooze - 1#16)) } := by
  unfold snoozeStep
  split
  · next h => simp [← h]
  · rfl

/-- InactStep: one less while nonzero (42_rtc.md R188). -/
theorem inactStep_eq (s : State) :
    inactStep s = { s with inact := if s.inact = 0#8 then 0#8 else s.inact - 1#8 } := by
  unfold inactStep
  split
  · next h => simp [← h]
  · rfl

/-- DimRequest: a request and the pending flag while the dimmer is enabled (44_dimmer.md R250). -/
theorem dimRequest_eq (s : State) :
    dimRequest s =
      { s with
        dimmer := { s.dimmer with adcPending := s.dimmer.adcPending || s.dimmer.dimmerEn }
        outs := s.outs ++ if s.dimmer.dimmerEn then [.adcStart] else [] } := by
  unfold dimRequest
  rcases s with ⟨_, _, _, _, ⟨_, _, e, _⟩, _⟩
  cases e <;> simp [emit]

/-- Bit by bit, what making one bit equal to a flag does (43_alarm.md R221). -/
theorem putBit_getLsbD (v : Byte) (i : Fin 8) (f : Bool) (j : Nat) (hj : j < 8) :
    (putBit v i f).getLsbD j = if j = i.val then f else v.getLsbD j := by
  have h1 : (1#8 <<< i.val).getLsbD j = decide (j = i.val) := by
    rw [BitVec.getLsbD_shiftLeft, BitVec.getLsbD_one]
    by_cases h : j = i.val
    · simp [h]
    · by_cases g : j < i.val
      · simp [h, g]
      · simp [h, g, show j - i.val ≠ 0 by omega]
  unfold putBit
  cases f
  · simp only [Bool.false_eq_true, if_false, BitVec.getLsbD_and, BitVec.getLsbD_not, h1]
    by_cases h : j = i.val <;> simp [h, hj]
  · simp only [if_true, BitVec.getLsbD_or, h1]
    by_cases h : j = i.val <;> simp [h]

/-- The button an index names, and the index of a button (30_encoding.md R102). -/
@[simp] theorem buttonOf_buttonIndex (id : ButtonId) : buttonOf (buttonIndex id) = some id := by
  cases id <;> rfl

theorem buttonOf_eq_some {b : BitVec 2} {id : ButtonId} (h : buttonOf b = some id) :
    b = buttonIndex id := by
  revert b id
  decide

/-- RESET depends on durable storage by the twelve bytes it reads and by no other, so the reads that the
ports show are all there are (30_encoding.md R108, 70_reset_and_hazards.md R330, R332). -/
theorem opReset_eq_of_reads {c : Config} {s s' : State}
    (hnv : ∀ a ∈ resetAddrs, nvRead c s a = nvRead c s' a)
    (hsw : s.alarm.almswLvl = s'.alarm.almswLvl)
    (hpin : ∀ id, (s.buttons.get id).pinLvl = (s'.buttons.get id).pinLvl) (hin : s.inbox = s'.inbox) :
    opReset c s = { opReset c s' with nv := s.nv } := by
  simp only [resetAddrs, List.forall_mem_cons, nvRead] at hnv
  obtain ⟨h0, h1, h2, h3, h4, h5, h6, h7, h8, h9, hA, hB, -⟩ := hnv
  simp_all [opReset, Clock.load, Alarm.load, Dimmer.load, Buttons.cleared, nvRead]

end Sys2Proof.Machine
end

