-- ==== Sys2Proof/Laws/PerInstr.lean ====
section
/-! SUPPORT. The per-operation family `EncodeMatchesRow`: the word of a well-formed operation has, in
the bits that its row's mask selects, exactly the row's match (30_encoding.md R102). -/

namespace Sys2Proof.Laws

/-- The operation's word matches the operation's row of the opcode table. -/
def EncodeMatchesRow.Statement (i : Instr) : Prop :=
  i.wellFormed = true → encode i &&& i.rowMask = i.rowMatch

/-- What is left of the family's statement once the word is taken apart into its three fields. -/
theorem encodeMatchesRow_of_fields {i : Instr}
    (h1 : i.opcode &&& i.rowMask.op = i.rowMatch.op) (h2 : i.fieldA &&& i.rowMask.a = i.rowMatch.a)
    (h3 : i.fieldD &&& i.rowMask.d = i.rowMatch.d) : EncodeMatchesRow.Statement i := fun _ =>
  EventWord.eq_of_fields (by simpa [encode] using h1) (by simpa [encode] using h2)
    (by simpa [encode] using h3)

theorem EncodeMatchesRow.nop : EncodeMatchesRow.Statement .nop := by
  intro _; decide

theorem EncodeMatchesRow.ftick : EncodeMatchesRow.Statement .ftick := by
  intro _; decide

theorem EncodeMatchesRow.stick : EncodeMatchesRow.Statement .stick := by
  intro _; decide

theorem EncodeMatchesRow.pin (b : BitVec 2) (lvl : Bool) : EncodeMatchesRow.Statement (.pin b lvl) := by
  intro h
  have hb : b = 0#2 ∨ b = 1#2 ∨ b = 2#2 ∨ b = 3#2 := by bv_omega
  rcases hb with rfl | rfl | rfl | rfl
  · cases lvl <;> decide
  · cases lvl <;> decide
  · cases lvl <;> decide
  · cases h

theorem EncodeMatchesRow.adcdone (v : Byte) : EncodeMatchesRow.Statement (.adcdone v) := by
  have h1 : EventWord.op 0xFFFF00#24 = 0xFF#8 ∧ EventWord.op 0x040000#24 = 0x04#8 := by decide
  have h2 : EventWord.a 0xFFFF00#24 = 0xFF#8 ∧ EventWord.a 0x040000#24 = 0#8 := by decide
  have h3 : EventWord.d 0xFFFF00#24 = 0x00#8 ∧ EventWord.d 0x040000#24 = 0#8 := by decide
  refine encodeMatchesRow_of_fields ?_ ?_ ?_
  · simp only [Instr.opcode, Instr.rowMask, Instr.rowMatch, h1]; decide
  · simp only [Instr.fieldA, Instr.rowMask, Instr.rowMatch, h2, BitVec.zero_and]
  · simp only [Instr.fieldD, Instr.rowMask, Instr.rowMatch, h3, BitVec.and_zero]

theorem EncodeMatchesRow.almsw (lvl : Bool) : EncodeMatchesRow.Statement (.almsw lvl) := by
  intro _; revert lvl; decide

theorem EncodeMatchesRow.hwr (addr data : Byte) : EncodeMatchesRow.Statement (.hwr addr data) := by
  have h1 : EventWord.op 0xFF0000#24 = 0xFF#8 ∧ EventWord.op 0x060000#24 = 0x06#8 := by decide
  have h2 : EventWord.a 0xFF0000#24 = 0x00#8 ∧ EventWord.a 0x060000#24 = 0#8 := by decide
  have h3 : EventWord.d 0xFF0000#24 = 0x00#8 ∧ EventWord.d 0x060000#24 = 0#8 := by decide
  refine encodeMatchesRow_of_fields ?_ ?_ ?_
  · simp only [Instr.opcode, Instr.rowMask, Instr.rowMatch, h1]; decide
  · simp only [Instr.fieldA, Instr.rowMask, Instr.rowMatch, h2, BitVec.and_zero]
  · simp only [Instr.fieldD, Instr.rowMask, Instr.rowMatch, h3, BitVec.and_zero]

theorem EncodeMatchesRow.hrd (addr : Byte) : EncodeMatchesRow.Statement (.hrd addr) := by
  have h1 : EventWord.op 0xFF00FF#24 = 0xFF#8 ∧ EventWord.op 0x070000#24 = 0x07#8 := by decide
  have h2 : EventWord.a 0xFF00FF#24 = 0x00#8 ∧ EventWord.a 0x070000#24 = 0#8 := by decide
  have h3 : EventWord.d 0xFF00FF#24 = 0xFF#8 ∧ EventWord.d 0x070000#24 = 0#8 := by decide
  refine encodeMatchesRow_of_fields ?_ ?_ ?_
  · simp only [Instr.opcode, Instr.rowMask, Instr.rowMatch, h1]; decide
  · simp only [Instr.fieldA, Instr.rowMask, Instr.rowMatch, h2, BitVec.and_zero]
  · simp only [Instr.fieldD, Instr.rowMask, Instr.rowMatch, h3, BitVec.zero_and]

theorem EncodeMatchesRow.reset : EncodeMatchesRow.Statement .reset := by
  intro _; decide

end Sys2Proof.Laws
end

