-- ==== Sys2Proof/Tests/Slice0.lean ====
section
/-! SUPPORT. Tests of this model. Every expected value is the spec's own: the tables of
95_test_vectors.md (with its configuration TC1) or 30_encoding.md R109. The last part shows, for every
statement with hypotheses, states and operands that meet them. -/

namespace Sys2Proof.Tests

open Sys2Proof.Machine

/-! ## Well-formedness -/

/-- The one check of `Instr.wellFormed`: PIN with the index 3 is refused. -/
theorem test_wellFormed_pin_three : (Instr.pin 3#2 true).wellFormed = false := by decide

theorem test_wellFormed_pin_two : (Instr.pin 2#2 true).wellFormed = true := by decide

/-! ## Decoding: words of 30_encoding.md R109 and of 95_test_vectors.md, section 3.1 -/

theorem test_decode_nop : decodeWord 0b000000000000000000000000#24 = .ok .nop := rfl
theorem test_decode_ftick : decodeWord 0b000000010000000000000000#24 = .ok .ftick := rfl
theorem test_decode_stick : decodeWord 0b000000100000000000000000#24 = .ok .stick := rfl
theorem test_decode_pin : decodeWord 0b000000110000001000000001#24 = .ok (.pin 2#2 true) := rfl
theorem test_decode_pin_low : decodeWord 0b000000110000000100000000#24 = .ok (.pin 1#2 false) := rfl
theorem test_decode_adcdone : decodeWord 0b000001000000000001111111#24 = .ok (.adcdone 0x7F#8) := rfl
theorem test_decode_almsw : decodeWord 0b000001010000000000000001#24 = .ok (.almsw true) := rfl
theorem test_decode_hwr : decodeWord 0b000001100010001110100101#24 = .ok (.hwr 0x23#8 0xA5#8) := rfl
theorem test_decode_hrd : decodeWord 0b000001110000110100000000#24 = .ok (.hrd 0x0D#8) := rfl
theorem test_decode_reset : decodeWord 0b000010000000000000000000#24 = .ok .reset := rfl

/-- The bytes of a word come most significant first (20_memory.md R76). -/
theorem test_decode_bytes :
    decodeBytes [0x03#8, 0x02#8, 0x00#8, 0x01#8] = .ok (.pin 2#2 false, [0x01#8]) := rfl

theorem test_reserved_pin_a : decodeWord 0x030400#24 = .error (.nonzeroA 0x03#8) := rfl
theorem test_reserved_almsw_d : decodeWord 0x050002#24 = .error (.nonzeroD 0x05#8) := rfl
theorem test_reserved_opcode : decodeWord 0xFFFFFF#24 = .error (.reservedOpcode 0xFF#8) := rfl

theorem test_table_word : decodeTableWord 24 0x060F05 = some (.hwr 0x0F#8 0x05#8) := rfl

/-- `step` fetches and runs exactly the word placed, as the first after reset: RD of DISP_MODE. -/
theorem test_withFetchWord :
    step (State.reset.withFetchWord 24 0x070F00) = .next { State.reset with outs := [.rd 0#8] } := rfl

/-! ## One operation at a time, under the configuration TC1 of 95_test_vectors.md, section 1 -/

/-- TC1, durable storage at launch holding `l` and then zeros. -/
def tc1 (l : List Byte) : Config where
  nDigits := 4
  muxDivider := 3
  snoozeSecs := 5
  debounceTicks := 3
  graceTicks := 4
  brightMin := 30
  brightMax := 90
  brightStep := 5
  dimThreshold := 128#8
  buzzPeriod := 250#16
  indAlarmBit := 1
  renderTime h m s _ u := [if u then 0x80#8 else 0x00#8, h, m, s]
  launchNv a := l.getD a 0#8
  launchPin _ := true
  launchSwitch := false

theorem tc1_valid (l : List Byte) : (tc1 l).Valid := by
  constructor <;> simp [tc1]

/-- TC1 with durable storage all 0x00, and its state after RESET. -/
def c0 : Config := tc1 []

def s0 : State := State.resetOf c0

/-- `s0` with another time and date, and the mode None. -/
def atTime (h m s d mo y : Byte) : State :=
  { s0 with mode := .noMode, clock := ⟨h, m, s, d, mo, y⟩ }

/-- `s0` with a button's machine in state `st` at count `cnt`, its pin low. -/
def withButton (id : ButtonId) (st : BtnState) (cnt : Half) (s : State) : State :=
  setButton id { s.buttons.get id with st := st, cnt := cnt, pinLvl := false, rawPressed := st.isPressed } s

/-- `s0` ringing, with the pulse on or off. -/
def ringing (pulse : Bool) : State :=
  { s0 with
    alarm := { s0.alarm with
      alarmEn := true, almswLvl := true, ringing := true, pulsePhase := pulse, buzzerOn := pulse } }

/-- 45_host.md R292 (H19). -/
theorem test_nop : startOp { s0 with outs := [.click] } = s0 := by decide

/-- Vector M4: the last position, and the wrap. -/
theorem test_ftick_wrap :
    opFtick c0 { s0 with mux := ⟨3#4, 2#16, 0#4, 0#8, false⟩, dispBuf := [0#8, 0#8, 0#8, 0xFF#8] } =
      { s0 with
        mux := ⟨0#4, 0#16, 3#4, 0xFF#8, true⟩, dispBuf := [0#8, 0#8, 0#8, 0xFF#8]
        outs := [.disp 3#4 0xFF#8] } := by decide

/-- Vector A6 before its third tick. -/
def beforeA6 : State :=
  withButton .b .settle 2#16
    { ringing false with
      mux := ⟨0#4, 2#16, 0#4, 0#8, false⟩
      alarm := { (ringing false).alarm with almDiv := 99#8 } }

/-- Vector A6, its third tick: the order of the outputs, and the snooze diversion. -/
theorem test_ftick_order :
    (opFtick c0 beforeA6).outs = [.disp 0#4 0#8, .buzz true 250#16, .click, .buzz false 250#16] := by
  decide

/-- Vectors T11, T12, T14, T13: the end of February in years 1, 4 and 0 of which the last two are leap
years, and a leap day that is not repeated; vector T5: a carry out of January, and the order of the
writes. -/
theorem test_stick_rollover :
    ([(28#8, 1#8), (28#8, 4#8), (28#8, 0#8), (29#8, 4#8)].map fun d =>
      (opStick c0 (atTime 23#8 59#8 59#8 d.1 2#8 d.2)).clock.date) =
      [(1, 3, 1), (29, 2, 4), (29, 2, 0), (1, 3, 4)] ∧
    ((opStick c0 (atTime 23#8 59#8 59#8 31#8 1#8 5#8)).clock,
      (opStick c0 (atTime 23#8 59#8 59#8 31#8 1#8 5#8)).outs) =
    (⟨0#8, 0#8, 0#8, 1#8, 2#8, 5#8⟩,
      [.nvw 0x02#8 0#8, .nvw 0x01#8 0#8, .nvw 0x00#8 0#8, .nvw 0x05#8 1#8, .nvw 0x06#8 2#8]) := by
  decide

/-- Vector T32: the unknown-time blink and the alarm indicator. -/
theorem test_stick_render :
    (opStick c0
      { s0 with
        clock := ⟨12#8, 34#8, 56#8, 1#8, 1#8, 0#8⟩
        alarm := { s0.alarm with alarmEn := true } }).dispBuf =
      [0x82#8, 0x0C#8, 0x22#8, 0x39#8] := by decide

/-- Vector B1: the press edge. -/
theorem test_pin_press :
    (opPin .a false s0).buttons.a = ⟨false, .settle, 0#16, false, false, false⟩ := by decide

/-- Vector B2: the tap. -/
theorem test_pin_tap :
    (opPin .c true (withButton .c .grace 3#16 s0)).buttons.c =
      ⟨true, .idle, 3#16, false, true, false⟩ := by decide

/-- The dimmer's start state of 95_test_vectors.md, section 3.6. -/
def dim : State :=
  { s0 with dimmer := { s0.dimmer with bright := 60#8, brightOut := 60#8, dimmerEn := true } }

/-- Vector D2. -/
theorem test_adcdone_bright_room :
    opAdcdone c0 127#8 dim =
      { dim with dimmer := { dim.dimmer with brightOut := 30#8 }, outs := [.bright 30#8] } := by decide

/-- Vector D10. -/
theorem test_adcdone_gated :
    opAdcdone c0 0#8 { dim with mode := .setBrightness } = { dim with mode := .setBrightness } := by
  decide

/-- Vector A11, with the snooze running. -/
theorem test_almsw_off :
    opAlmsw c0 false { ringing false with mode := .showSnooze } = { s0 with mode := .showSnooze } := by
  decide

/-- Vector A10, its second operation: a level that repeats is no edge. -/
theorem test_almsw_repeat :
    (opAlmsw c0 true { s0 with alarm := { s0.alarm with almswLvl := true } }).alarm.alarmEn = false := by
  decide

/-- Vector H8: 47 goes to 45, stored and driven. -/
theorem test_hwr_bright :
    ((opHwr c0 0x10#8 47#8 dim).outs, (opHwr c0 0x10#8 47#8 dim).dimmer.bright) =
      ([.nvw 0x08#8 45#8, .bright 45#8], 45#8) := by decide

/-- Vector H18: write 1 to clear. -/
theorem test_hwr_btnJp :
    let jp (s : State) : List Bool := [s.buttons.a.justPressed, s.buttons.b.justPressed,
      s.buttons.c.justPressed]
    jp (opHwr c0 0x0D#8 0x05#8
      { s0 with buttons := ⟨{ s0.buttons.a with justPressed := true },
        { s0.buttons.b with justPressed := true }, { s0.buttons.c with justPressed := true }⟩ }) =
      [false, true, false] := by decide

/-- Vector A13. -/
theorem test_hrd_snooze :
    let s : State := { s0 with alarm := { s0.alarm with snooze := 300#16 } }
    ((opHrd c0 0x0A#8 s).outs, (opHrd c0 0x0B#8 s).outs) = ([.rd 0x2C#8], [.rd 0x01#8]) := by decide

/-- Vector H16: an unmapped address under four digits. -/
theorem test_hrd_unmapped : (opHrd c0 0x24#8 s0).outs = [.rd 0x00#8] := by decide

/-- Vector X1: every byte of durable storage 0xFF. -/
theorem test_reset_legalises :
    let t := opReset (tc1 (List.replicate 12 0xFF#8)) s0
    (t.clock, t.alarm.alarmH, t.alarm.alarmM, t.dimmer, t.volume) =
      (⟨15#8, 15#8, 15#8, 7#8, 3#8, 55#8⟩, 15#8, 15#8, ⟨90#8, 90#8, true, false⟩, 255#8) := by decide

/-- Vector X7: what is cleared, and the latches kept, without a BUZZ. -/
theorem test_reset_clears :
    opReset c0 { ringing true with mode := .setBrightness, inact := 9#8, timeUnknown := false } =
      { s0 with alarm := { s0.alarm with alarmEn := true, almswLvl := true } } := by decide

/-! ## The ports and the trace syntax -/

/-- Vector A6, its third tick, on the ports of 30_encoding.md R108: two strobes of `buzz_upd`, and no
access to storage. -/
theorem test_ports_ftick :
    outPorts c0 .ftick beforeA6 (opFtick c0 beforeA6) =
      { hRdata := none, dispValid := true, dispIdx := 0#4, dispSeg := 0#8
        buzzOn := false, buzzPeriod := 250#16, buzzUpds := [(true, 250#16), (false, 250#16)]
        clicks := 1, adcStart := false, bright := 30#8, nvAccesses := [] } := by decide

/-- Vector X2 on the storage port: RESET's twelve reads, in the order of its pseudocode
(70_reset_and_hazards.md R330), and no write. -/
theorem test_ports_reset :
    let c := tc1 [24#8, 60#8, 60#8, 24#8, 60#8, 32#8, 13#8, 100#8, 91#8, 7#8, 9#8, 2#8]
    (outPorts c .reset s0 (opReset c s0)).nvAccesses =
      [.read 0x00#8 24#8, .read 0x01#8 60#8, .read 0x02#8 60#8, .read 0x03#8 24#8, .read 0x04#8 60#8,
        .read 0x05#8 32#8, .read 0x06#8 13#8, .read 0x07#8 100#8, .read 0x08#8 91#8, .read 0x09#8 7#8,
        .read 0x0A#8 9#8, .read 0x0B#8 2#8] := by decide

/-- 60_exceptions.md R308: a slow tick and a fast tick that coincide. -/
theorem test_coincidence :
    InPorts.events ⟨true, true, true, false⟩
      ⟨false, true, true, ⟨false, true, true, true⟩, false, 0#8, false, false, 0#8, 0#8⟩ =
      [.ftick, .stick, .pin 0#2 false, .almsw true] := by decide

/-- 60_exceptions.md R308: every port active at one instant. -/
theorem test_coincidence_all :
    InPorts.events ⟨true, true, true, false⟩
      ⟨true, true, true, ⟨false, false, false, true⟩, true, 7#8, true, true, 0x10#8, 9#8⟩ =
      [.reset, .ftick, .stick, .pin 0#2 false, .pin 1#2 false, .pin 2#2 false, .adcdone 7#8, .almsw true,
        .hwr 0x10#8 9#8, .hrd 0x10#8] := by decide

/-- 30_encoding.md R106, R107: a line of the trace syntax. -/
theorem test_trace :
    readTraceLine ['S', 'E', 'T', 'M', 'O', 'D', 'E', ' ', 'N', 'o', 'n', 'e', ' ', ';', 'x'] =
      some [.hwr 0x0F#8 0x09#8] := by decide

/-! ## Hypotheses that can be met, statement by statement -/

theorem witness_DecodeOfEncodeGivesTheOperation :
    (Instr.pin 2#2 true).wellFormed = true ∧ (Instr.hwr 0xFF#8 0xFF#8).wellFormed = true := by decide

theorem witness_DecodedWordIsTheOperationsWord :
    decodeWord 0x06FFFF#24 = .ok (.hwr 0xFF#8 0xFF#8) := rfl

/-- The row of PIN, and a row without the condition of PIN. -/
theorem witness_DecodeSelectsByMaskAndMatch :
    (0x030201#24 &&& (Instr.pin 0#2 false).rowMask = (Instr.pin 0#2 false).rowMatch ∧
      (BitVec.extractLsb' 8 2 0x030201#24) ≠ 3#2) ∧
    (0x08FF00#24 &&& (Instr.hrd 0#8).rowMask ≠ (Instr.hrd 0#8).rowMatch) ∧
    0x07FF00#24 &&& (Instr.hrd 0#8).rowMask = (Instr.hrd 0#8).rowMatch := by decide

theorem witness_ReservedWordsAreRefused :
    (deliverFirst 0x090000#24 s0).inbox = 0x090000#24 :: [] ∧
    ∀ i : Instr, i.wellFormed = true → encode i ≠ 0x090000#24 := by
  refine ⟨rfl, fun i _ h => ?_⟩
  have hop : i.opcode = 0x09#8 := by
    have := congrArg EventWord.op h
    rwa [encode, EventWord.make_op] at this
  cases i <;> simp [Instr.opcode] at hop

theorem witness_StepRunsTheDecodedEvent :
    (deliverFirst 0x010000#24 s0).inbox = 0x010000#24 :: [] ∧ decodeWord 0x010000#24 = .ok .ftick :=
  ⟨rfl, rfl⟩

theorem witness_StepWithoutEventIsNop : s0.inbox = [] := rfl

theorem witness_EveryOperationCompletes : Instr.nop.wellFormed = true := rfl

/-- The first and the last mode, the first and the last position of the buffer, and the ends of the
unmapped ranges. -/
theorem witness_HrdReturnsTheRegisterByte :
    let n := Config.hw.nDigits
    ((.showTime, 0#8) ∈ modeNumbers ∧ s0.mode = .showTime) ∧
    ((.noMode, 9#8) ∈ modeNumbers ∧ { s0 with mode := .noMode }.mode = .noMode) ∧
    State.reset.dispBuf.length = n ∧ 0 < State.reset.dispBuf.length ∧
    n - 1 < State.reset.dispBuf.length ∧
    (0x17 ≤ (0x17#8).toNat ∧ (0x17#8).toNat < 0x20) ∧ (0x17 ≤ (0x1F#8).toNat ∧ (0x1F#8).toNat < 0x20) ∧
    0x20 + n ≤ (BitVec.ofNat 8 (0x20 + n)).toNat ∧ 0x20 + n ≤ (0xFF#8).toNat := by
  have h1 := Config.hw_valid.nDigits_pos
  have h2 := Config.hw_valid.nDigits_le
  have hl : State.reset.dispBuf.length = Config.hw.nDigits := List.length_replicate
  have e : (BitVec.ofNat 8 (0x20 + Config.hw.nDigits)).toNat = 0x20 + Config.hw.nDigits := by
    rw [BitVec.toNat_ofNat]; omega
  refine ⟨⟨by decide, rfl⟩, ⟨by decide, rfl⟩, hl, by omega, by omega, by decide, by decide, by omega, ?_⟩
  show 0x20 + Config.hw.nDigits ≤ 255
  omega

theorem witness_HwrStoresTimeDateAndAlarm : Memory.wf Config.hw State.reset.nv = true := rfl
theorem witness_HwrBrightStoresAndDrives : Memory.wf Config.hw State.reset.nv = true := rfl
theorem witness_HwrDimCtrlStoresAndRestores :
    Memory.wf Config.hw State.reset.nv = true ∧ (0x03#8).getLsbD 0 = true ∧
      (0x02#8).getLsbD 0 = false := ⟨rfl, rfl, rfl⟩
theorem witness_HwrStoresVolumeAndRegion : Memory.wf Config.hw State.reset.nv = true := rfl

theorem witness_HwrAlmCtrlEnablesOrDisables :
    (0x03#8).getLsbD 0 = true ∧ (0xFE#8).getLsbD 0 = false := ⟨rfl, rfl⟩

theorem witness_HwrDispModeTakesTenValues : 10 ≤ (10#8).toNat ∧ 10 ≤ (255#8).toNat := by decide

/-- The first and the last position. -/
theorem witness_HwrDispBufSetsOneByte :
    State.reset.dispBuf.length = Config.hw.nDigits ∧ 0 < Config.hw.nDigits ∧
      Config.hw.nDigits - 1 < Config.hw.nDigits := by
  have h1 := Config.hw_valid.nDigits_pos
  exact ⟨List.length_replicate, h1, by omega⟩

theorem witness_HwrElsewhereChangesNothing :
    let n := Config.hw.nDigits
    (0x11#8 : Byte) ∈ [0x09#8, 0x0A#8, 0x0B#8, 0x0C#8, 0x0E#8, 0x11#8] ∧
    (0x17 ≤ (0x17#8).toNat ∧ (0x17#8).toNat < 0x20) ∧ (0x17 ≤ (0x1F#8).toNat ∧ (0x1F#8).toNat < 0x20) ∧
    0x20 + n ≤ (BitVec.ofNat 8 (0x20 + n)).toNat ∧ 0x20 + n ≤ (0xFF#8).toNat := by
  have h2 := Config.hw_valid.nDigits_le
  refine ⟨by decide, by decide, by decide, ?_, ?_⟩ <;> simp only [BitVec.toNat_ofNat] <;> omega

/-- A press edge in IDLE, and one in SETTLE (a bounce). -/
theorem witness_PinPressEdgeStartsTheSettleInterval :
    (s0.buttons.get .a).pinLvl = true ∧ (s0.buttons.get .a).st = .idle ∧
      (s0.buttons.get .a).rawPressed = false ∧
    let s := setButton .b { s0.buttons.b with st := .settle } s0
    (s.buttons.get .b).pinLvl = true ∧ (s.buttons.get .b).st = .settle := by decide

/-- A release edge in each of the five states. -/
theorem witness_PinReleaseEdgeEndsThePress :
    ∀ st ∈ [BtnState.idle, .settle, .down, .grace, .held],
      ((withButton .c st 0#16 s0).buttons.get .c).pinLvl = false ∧
        ((withButton .c st 0#16 s0).buttons.get .c).st = st := by decide

theorem witness_AlmswFollowsTheSwitch :
    s0.alarm.almswLvl = false ∧ (ringing true).alarm.almswLvl = true := by decide

theorem witness_AdcdoneAppliesTheSample :
    s0.dimmer.dimmerEn = false ∧ { dim with mode := .setBrightness }.mode = .setBrightness ∧
      dim.dimmer.dimmerEn = true ∧ dim.mode ≠ .setBrightness := by decide

theorem witness_ResetIsIdempotent : ∃ t, exec .reset s0 = .next t := ⟨_, rfl⟩

theorem witness_ResetDependsOnStorageAndLatchesOnly :
    let s' : State := { s0 with mode := .setAlarm, inact := 9#8 }
    s0 ≠ s' ∧ s0.nv = s'.nv ∧ s0.alarm.almswLvl = s'.alarm.almswLvl ∧
      (∀ id, (s0.buttons.get id).pinLvl = (s'.buttons.get id).pinLvl) ∧ s0.inbox = s'.inbox :=
  ⟨by decide, rfl, rfl, fun _ => rfl, rfl⟩

/-- A tick on which the divider wraps, and one on which it does not. -/
theorem witness_FtickDividesAndFires :
    { s0 with mux := { s0.mux with muxDiv := BitVec.ofNat 16 (Config.hw.muxDivider - 1) } }.mux.muxDiv.toNat
        = Config.hw.muxDivider - 1 ∧
      { s0 with mux := { s0.mux with muxDiv := 0xFFFF#16 } }.mux.muxDiv.toNat
        ≠ Config.hw.muxDivider - 1 := by
  have h := Config.hw_valid.muxDivider_le
  simp only [BitVec.toNat_ofNat]
  omega

/-- A state in which the press of Button A is confirmed on the next fast tick, and one without. -/
theorem witness_FtickPulsesOrSnoozes :
    let s := withButton .a .settle (BitVec.ofNat 16 (Config.hw.debounceTicks - 1)) (ringing true)
    s.alarm.buzzerOn = s.alarm.pulsePhase ∧ s.alarm.ringing = true ∧
      s.buttons.confirmed Config.hw ≠ [] ∧
    s0.alarm.buzzerOn = s0.alarm.pulsePhase ∧ s0.alarm.ringing = false ∧
      s0.buttons.confirmed Config.hw = [] := by
  have h1 := Config.hw_valid.debounceTicks_pos
  have h2 := Config.hw_valid.debounceTicks_le
  have hc : ∀ s : State, ((withButton .a .settle
      (BitVec.ofNat 16 (Config.hw.debounceTicks - 1)) s).buttons.get .a).confirms Config.hw = true := by
    intro s
    simp only [withButton, setButton, Buttons.get_set_same, Button.confirms, BitVec.toNat_ofNat,
      Nat.mod_eq_of_lt (show Config.hw.debounceTicks - 1 < 2 ^ 16 by omega),
      Nat.sub_add_cancel h1]
    simp
  refine ⟨rfl, rfl, ?_, rfl, rfl, rfl⟩
  simp [Buttons.confirmed, List.filter, hc]

theorem witness_FastTicksScanThePositionsCyclically :
    State.reset.mux = ⟨0#4, 0#16, 0#4, 0#8, false⟩ ∧ Config.hw.muxDivider ≤ Config.hw.muxDivider :=
  ⟨rfl, Nat.le_refl _⟩

/-- Noon of a date. -/
def noon (d mo y : Byte) : Clock := ⟨12#8, 0#8, 0#8, d, mo, y⟩

/-- The last second of a date. -/
def lastSecond (d mo y : Byte) : Clock := ⟨23#8, 59#8, 59#8, d, mo, y⟩

theorem noon_time (d mo y : Byte) :
    (noon d mo y).TimeInRange ∧ (noon d mo y).secondOfDay = 43200 :=
  ⟨⟨show 12 ≤ 23 by decide, show 0 ≤ 59 by decide, show 0 ≤ 59 by decide⟩,
    show 12 * 3600 + 0 * 60 + 0 = 43200 by norm_num⟩

theorem lastSecond_time (d mo y : Byte) :
    (lastSecond d mo y).TimeInRange ∧ (lastSecond d mo y).secondOfDay = 86399 :=
  ⟨⟨show 23 ≤ 23 by decide, show 59 ≤ 59 by decide, show 59 ≤ 59 by decide⟩,
    show 23 * 3600 + 59 * 60 + 59 = 86399 by norm_num⟩

/-- The last day of a year, and of a month of each length: with `lastSecond_time` and `noon_time` both
cases of the statement. -/
theorem witness_StickFollowsTheCalendar :
    (lastSecond 31#8 12#8 99#8).ValidDate ∧ (lastSecond 31#8 1#8 5#8).ValidDate ∧
      (lastSecond 30#8 4#8 5#8).ValidDate ∧ (lastSecond 28#8 2#8 1#8).ValidDate ∧
      (lastSecond 29#8 2#8 4#8).ValidDate ∧ (noon 29#8 2#8 4#8).ValidDate ∧
      [monthLength 12#8 99#8, monthLength 4#8 5#8, monthLength 2#8 1#8, monthLength 2#8 4#8] =
        [31, 30, 28, 29] := by
  unfold Clock.ValidDate Clock.DateInRange
  refine ⟨by decide, by decide, by decide, by decide, by decide, by decide, rfl⟩

theorem witness_StickAdvancesTheTimeOfDay : s0.clock.TimeInRange := by
  unfold Clock.TimeInRange; decide

theorem witness_ADayOfSticksIsOneDay : s0.clock.TimeInRange ∧ s0.clock.ValidDate := by
  unfold Clock.TimeInRange Clock.ValidDate Clock.DateInRange; decide

/-- The dates of vectors T19-T23, one for each clause; `noon_time` and `lastSecond_time` give the premise
on the time, which these dates meet with either time of day. -/
theorem witness_StickRepairsAnInvalidDate :
    ∀ clockAt ∈ [noon, lastSecond],
      (let t := clockAt 31#8 4#8 5#8
       t.year.toNat ≤ 99 ∧ t.month.toNat ∈ [4, 6, 9, 11] ∧ t.day.toNat = 31) ∧
      (let t := clockAt 29#8 2#8 1#8
       t.year.toNat ≤ 99 ∧ t.month.toNat = 2 ∧ t.day.toNat = 29 ∧ t.year.toNat % 4 ≠ 0) ∧
      (let t := clockAt 30#8 2#8 4#8
       t.year.toNat ≤ 99 ∧ t.month.toNat = 2 ∧ t.day.toNat = 30) ∧
      (let t := clockAt 31#8 2#8 4#8
       t.year.toNat ≤ 99 ∧ t.month.toNat = 2 ∧ t.day.toNat = 31) := by
  intro clockAt h
  simp only [List.mem_cons, List.not_mem_nil, or_false] at h
  rcases h with rfl | rfl <;> exact ⟨by decide, by decide, by decide, by decide⟩

theorem witness_StickWritesChangedFieldsThrough : Memory.wf Config.hw State.reset.nv = true := rfl

theorem witness_StickRendersAndBlinks :
    State.reset.dispBuf.length = Config.hw.nDigits ∧ State.reset.mode = .showTime ∧
      { State.reset with mode := .noMode }.dispBuf.length = Config.hw.nDigits ∧
      { State.reset with mode := .noMode }.mode ≠ .showTime ∧ 0 < 8 ∧ 7 < 8 :=
  ⟨List.length_replicate, rfl, List.length_replicate, by simp, by decide, by decide⟩

/-- Vector A1: one second before the alarm time, 07:00 with the alarm enabled. -/
def beforeAlarm : State :=
  { atTime 6#8 59#8 59#8 1#8 1#8 0#8 with
    alarm := { s0.alarm with alarmH := 7#8, alarmEn := true } }

/-- The three cases: the trigger, a running snooze, neither. -/
theorem witness_StickTriggersOrCountsDown :
    beforeAlarm.alarm.Triggers (opStick Config.hw beforeAlarm).clock ∧
    (let s := { ringing false with alarm := { (ringing false).alarm with alarmH := 7#8, snooze := 4#16 } }
     ¬ s.alarm.Triggers (opStick Config.hw s).clock ∧ s.alarm.snooze ≠ 0#16) ∧
    ¬ s0.alarm.Triggers (opStick Config.hw s0).clock ∧ s0.alarm.snooze = 0#16 := by
  have hc : ∀ s : State, (opStick Config.hw s).clock = timeAdvance s.clock := by
    intro s
    unfold opStick
    rw [nvWriteThrough_frame]
    simp only [dimRequest_eq, inactStep_eq, snoozeStep_eq, alarmCheck_eq, render_eq, startOp_clock]
  simp only [hc]
  decide

/-- A state with the invariant: the buffer cleared, the brightness at the safety minimum. -/
def quiet : State :=
  { s0 with
    dispBuf := List.replicate Config.hw.nDigits 0#8
    dimmer := ⟨BitVec.ofNat 8 Config.hw.brightMin, BitVec.ofNat 8 Config.hw.brightMin, false, false⟩ }

theorem witness_EveryStepKeepsTheInvariant :
    quiet.Inv Config.hw ∧ ∃ t, step quiet = .next t := by
  have v := Config.hw_valid
  have hb : BrightLevel Config.hw (BitVec.ofNat 8 Config.hw.brightMin) := by
    have h1 := v.brightMin_le
    have h2 := v.brightMax_le
    have e : (BitVec.ofNat 8 Config.hw.brightMin).toNat = Config.hw.brightMin := by
      rw [BitVec.toNat_ofNat]; omega
    exact ⟨0, by rw [e]; omega, by rw [e]; exact h1⟩
  refine ⟨⟨?_, ?_, ?_, ?_, v.nDigits_pos, v.muxDivider_pos, List.length_replicate, hb, hb, rfl⟩, _, rfl⟩
  · unfold Clock.TimeInRange; decide
  · unfold Clock.DateInRange; decide
  · refine ⟨by decide, by decide, rfl, by decide, by decide, by decide, by decide, Nat.zero_le _⟩
  · intro id
    refine ⟨?_, ?_, ?_, ?_, ?_, ?_, ?_⟩ <;> revert id <;>
      simp only [quiet, s0, State.resetOf, Buttons.cleared, Button.cleared] <;>
      intro id <;> cases id <;> simp [Buttons.get, BtnState.isPressed]

theorem witness_RingingEndsOnlyByDisableOrReset :
    ∃ t, exec (.almsw false) (ringing true) = .next t ∧ (ringing true).alarm.ringing = true ∧
      t.alarm.ringing = false := ⟨_, rfl, rfl, rfl⟩

theorem witness_RingingBeginsOnlyAtTheAlarmTime :
    ∃ t, exec .stick beforeAlarm = .next t ∧ beforeAlarm.alarm.ringing = false ∧
      t.alarm.ringing = true := ⟨_, rfl, rfl, rfl⟩

theorem witness_ModeHasThreeWriters :
    ∃ t, exec (.hwr 0x0F#8 5#8) s0 = .next t ∧ t.mode ≠ s0.mode := ⟨_, rfl, by decide⟩

theorem witness_StorageIsWrittenByStickAndHostOnly :
    let d := ~~~ Config.hw.launchNv 0x09
    ∃ t, Memory.wf Config.hw State.reset.nv = true ∧ exec (.hwr 0x15#8 d) State.reset = .next t ∧
      Memory.read Config.hw t.nv 0x09 ≠ Memory.read Config.hw State.reset.nv 0x09 := by
  refine ⟨_, rfl, rfl, ?_⟩
  show Memory.read Config.hw (Memory.write Config.hw [] 0x09 _) 0x09 ≠ Config.hw.launchNv 0x09
  rw [Memory.read_write_same rfl]
  intro h
  have := congrArg (fun v : Byte => v.getLsbD 0) h
  simp at this

/-- Every clause of the statement has a premise that some operation meets. -/
theorem witness_EveryFieldHasItsWriters :
    let c := Config.hw
    let newYear := atTime 23#8 59#8 59#8 31#8 12#8 5#8
    (∃ t, exec .stick newYear = .next t ∧ t.clock.second ≠ newYear.clock.second ∧
      t.clock.minute ≠ newYear.clock.minute ∧ t.clock.hour ≠ newYear.clock.hour ∧
      t.clock.day ≠ newYear.clock.day ∧ t.clock.month ≠ newYear.clock.month ∧
      t.clock.year ≠ newYear.clock.year) ∧
    (∃ t, exec (.hwr 0x07#8 1#8) s0 = .next t ∧ t.alarm.alarmH ≠ s0.alarm.alarmH) ∧
    (∃ t, exec (.hwr 0x06#8 1#8) s0 = .next t ∧ t.alarm.alarmM ≠ s0.alarm.alarmM) ∧
    (∃ t, exec (.almsw true) s0 = .next t ∧ t.alarm.alarmEn ≠ s0.alarm.alarmEn ∧
      t.alarm.almswLvl ≠ s0.alarm.almswLvl) ∧
    (∃ t, exec (.hwr 0x08#8 0#8) (ringing true) = .next t ∧
      t.alarm.ringing ≠ (ringing true).alarm.ringing ∧
      t.alarm.pulsePhase ≠ (ringing true).alarm.pulsePhase ∧
      t.alarm.buzzerOn ≠ (ringing true).alarm.buzzerOn) ∧
    (let s := { ringing false with alarm := { (ringing false).alarm with snooze := 4#16 } }
     ∃ t, exec (.almsw false) s = .next t ∧ t.alarm.snooze ≠ s.alarm.snooze) ∧
    (∃ t, exec .ftick (ringing false) = .next t ∧ t.alarm.almDiv ≠ (ringing false).alarm.almDiv) ∧
    (∃ t, exec (.pin 0#2 false) s0 = .next t ∧
      (t.buttons.get .a).pinLvl ≠ (s0.buttons.get .a).pinLvl ∧
      (t.buttons.get .a).st ≠ (s0.buttons.get .a).st) ∧
    (let s := withButton .c .grace 3#16 s0
     ∃ t, exec (.pin 2#2 true) s = .next t ∧ (s.buttons.get .c).st = .grace ∧ .c = repeatBtn ∧
      (s.buttons.get .c).justPressed = false ∧ (t.buttons.get .c).justPressed = true) ∧
    (let s := setButton .b { s0.buttons.b with justPressed := true } s0
     ∃ t, exec (.hwr 0x0D#8 2#8) s = .next t ∧ (s.buttons.get .b).justPressed = true ∧
      (t.buttons.get .b).justPressed = false) ∧
    (∃ t, exec (.hwr 0x0F#8 9#8) s0 = .next t ∧ t.mode ≠ s0.mode) ∧
    (∃ t, exec (.hwr 0x12#8 1#8) s0 = .next t ∧ t.dimmer.dimmerEn ≠ s0.dimmer.dimmerEn) ∧
    (let s := { dim with dimmer := { dim.dimmer with brightOut := 61#8 } }
     ∃ t, exec (.hwr 0x12#8 0#8) s = .next t ∧ t.dimmer.brightOut ≠ s.dimmer.brightOut) ∧
    (let s := { s0 with dimmer := { s0.dimmer with bright := clampq c 0#8 + 1#8 } }
     ∃ t, exec (.hwr 0x10#8 0#8) s = .next t ∧ t.dimmer.bright ≠ s.dimmer.bright) ∧
    (∃ t, exec .stick dim = .next t ∧ t.dimmer.adcPending ≠ dim.dimmer.adcPending) ∧
    (let s := { s0 with mux := { s0.mux with muxDiv := 0xFFFF#16 } }
     ∃ t, exec .ftick s = .next t ∧ t.mux ≠ s.mux) ∧
    (∃ t, exec (.hwr 0x20#8 1#8) State.reset = .next t ∧ t.dispBuf ≠ State.reset.dispBuf) ∧
    (∃ t, exec (.hwr 0x13#8 9#8) s0 = .next t ∧ t.inact ≠ s0.inact) ∧
    (∃ t, exec (.hwr 0x14#8 0#8) s0 = .next t ∧ t.timeUnknown ≠ s0.timeUnknown) ∧
    (∃ t, exec (.hwr 0x15#8 9#8) s0 = .next t ∧ t.volume ≠ s0.volume) ∧
    (∃ t, exec (.hwr 0x16#8 9#8) s0 = .next t ∧ t.region ≠ s0.region) := by
  refine ⟨⟨_, rfl, by decide, by decide, by decide, by decide, by decide, by decide⟩,
    ⟨_, rfl, by decide⟩, ⟨_, rfl, by decide⟩, ⟨_, rfl, by decide, by decide⟩,
    ⟨_, rfl, by decide, by decide, by decide⟩, ⟨_, rfl, by decide⟩, ⟨_, rfl, ?_⟩,
    ⟨_, rfl, by decide, by decide⟩, ⟨_, rfl, by decide, rfl, by decide, by decide⟩,
    ⟨_, rfl, by decide, by decide⟩,
    ⟨_, rfl, by decide⟩, ⟨_, rfl, by decide⟩, ⟨_, rfl, by decide⟩, ⟨_, rfl, ?_⟩,
    ⟨_, rfl, by decide⟩, ⟨_, rfl, ?_⟩, ?_, ⟨_, rfl, by decide⟩, ⟨_, rfl, by decide⟩,
    ⟨_, rfl, by decide⟩, ⟨_, rfl, by decide⟩⟩
  · simp only [opFtick, muxStep_eq]
    decide
  · show (writeBright _ _ _).dimmer.bright ≠ _
    simp only [writeBright, driveBright_eq, storeThrough_eq]
    intro h
    bv_omega
  · simp only [opFtick, muxStep_eq]
    intro h
    have := congrArg Mux.muxDiv h
    revert this
    show (if _ then _ else _ : Mux).muxDiv ≠ 0xFFFF#16
    split <;> decide
  · have h1 := Config.hw_valid.nDigits_pos
    refine ⟨{ State.reset with dispBuf := State.reset.dispBuf.set 0 1#8 }, ?_, ?_⟩
    · have hr : hostReg Config.hw 0x20#8 = some (.dispBuf 0) := by
        show (if 0x20 ≤ 32 ∧ 32 < 0x20 + Config.hw.nDigits then _ else _) = _
        rw [if_pos (by omega)]
        rfl
      simp only [exec, execHwr, opHwr, hr]
      rfl
    · intro h
      have := congrArg (fun l : List Byte => l[0]?) h
      simp only [State.reset, State.resetOf, clearedDispBuf] at this
      rw [List.getElem?_set_self (by rw [List.length_replicate]; omega),
        List.getElem?_replicate_of_lt (by omega)] at this
      exact absurd this (by decide)

theorem witness_AdcPendingIsNeverRead : ∃ t, exec (.adcdone 0#8) dim = .next t := ⟨_, rfl⟩

theorem witness_MultiplexerReadsBufferAndItselfOnly :
    let s' : State := { s0 with mode := .setAlarm, inact := 9#8 }
    s0 ≠ s' ∧ s0.mux = s'.mux ∧ s0.dispBuf = s'.dispBuf := by decide

theorem witness_ButtonsAreIndependent :
    let s' : State := withButton .a .down 0#16 s0
    s0 ≠ s' ∧ s0.buttons.get .b = s'.buttons.get .b ∧ s0.alarm.ringing = s'.alarm.ringing := by decide

/-- Each clause at the ends of its range, for the two moduli and for TC1. -/
theorem witness_LegalisationKeepsRanges :
    (1 ≤ 1 ∧ 1 ≤ 255 ∧ 1 ≤ 255 ∧ 255 ≤ 255) ∧
    (1 ≤ (1#8).toNat ∧ (31#8).toNat ≤ 31 ∧ 31 + 1 ≤ (32#8).toNat ∧ (62#8).toNat ≤ 2 * 31) ∧
    (12 + 1 ≤ (13#8).toNat ∧ (24#8).toNat ≤ 2 * 12) ∧ c0.Valid ∧
    (29#8).toNat < c0.brightMin ∧ c0.brightMax < (91#8).toNat ∧ c0.brightMin ≤ (30#8).toNat ∧
    (90#8).toNat ≤ c0.brightMax :=
  ⟨by decide, by decide, by decide, tc1_valid [], by decide, by decide, by decide, by decide⟩

end Sys2Proof.Tests
end

section
/-! PROOFS. The configurations that a choice stands for, and the step that meets a decoded event
(00_scope.md R5, R6). -/

namespace Sys2Proof

/-- The choice that stands for a legal configuration. -/
def Config.Valid.choices {c : Config} (h : c.Valid) : Config.Choices where
  nDigitsLess1 := ⟨c.nDigits - 1, by have := h.nDigits_le; omega⟩
  muxDividerLess1 := ⟨c.muxDivider - 1, by have := h.muxDivider_le; omega⟩
  snoozeSecsLess1 := ⟨c.snoozeSecs - 1, by have := h.snoozeSecs_le; omega⟩
  debounceTicksLess1 := ⟨c.debounceTicks - 1, by have := h.debounceTicks_le; omega⟩
  graceTicksLess1 := ⟨c.graceTicks - 1, by have := h.graceTicks_le; omega⟩
  brightMin := ⟨c.brightMin, by have := h.brightMin_le; have := h.brightMax_le; omega⟩
  brightStepLess1 := c.brightStep - 1
  brightQuanta := (c.brightMax - c.brightMin) / c.brightStep
  dimThreshold := c.dimThreshold
  buzzPeriod := c.buzzPeriod
  indAlarmBit := c.indAlarmBit
  renderByte hour minute second region unk k := (c.renderTime hour minute second region unk).getD k 0#8
  launchNv := c.launchNv
  launchPin := c.launchPin
  launchSwitch := c.launchSwitch

/-- `BRIGHT_MAX` is its number of quanta above `BRIGHT_MIN`, and the cut to a byte leaves that number
as it is. -/
theorem Config.Valid.brightMin_add_quanta {c : Config} (h : c.Valid) :
    c.brightMin + min ((c.brightMax - c.brightMin) / c.brightStep)
      ((255 - c.brightMin) / c.brightStep) * c.brightStep = c.brightMax := by
  have hfit : (c.brightMax - c.brightMin) / c.brightStep ≤ (255 - c.brightMin) / c.brightStep :=
    Nat.div_le_div_right (Nat.sub_le_sub_right h.brightMax_le _)
  rw [Nat.min_eq_left hfit, Nat.div_mul_cancel (Nat.dvd_of_mod_eq_zero h.brightStep_dvd),
    Nat.add_sub_cancel' h.brightMin_le]

/-- The rendered bytes are those of `RENDER_TIME` at the positions below `N_DIGITS`. -/
theorem Config.Valid.map_renderTime_getD {c : Config} (h : c.Valid)
    (hour minute second region : Byte) (unk : Bool) :
    (List.range c.nDigits).map ((c.renderTime hour minute second region unk).getD · 0#8) =
      c.renderTime hour minute second region unk := by
  have hlen := h.renderTime_length hour minute second region unk
  refine List.ext_getElem (by simp [hlen]) fun k _ hk => ?_
  simp [hk]

theorem Config.Valid.ofChoices_choices {c : Config} (h : c.Valid) :
    Config.ofChoices h.choices = c := by
  have hbright := h.brightMin_add_quanta
  have hrender := h.map_renderTime_getD
  have hn := Nat.sub_add_cancel h.nDigits_pos
  have hmux := Nat.sub_add_cancel h.muxDivider_pos
  have hsnooze := Nat.sub_add_cancel h.snoozeSecs_pos
  have hdebounce := Nat.sub_add_cancel h.debounceTicks_pos
  have hgrace := Nat.sub_add_cancel h.graceTicks_pos
  have hstep := Nat.sub_add_cancel h.brightStep_pos
  simp only [Config.ofChoices, Config.Valid.choices, hn, hmux, hsnooze, hdebounce, hgrace, hstep,
    hbright, hrender]

/-- Settles O58: the choice that stands for a legal configuration is `Config.Valid.choices`. -/
theorem choicesAreTheLegalConfigurations : Obligations.ChoicesAreTheLegalConfigurations := by
  intro c
  constructor
  · exact fun h => ⟨h.choices, h.ofChoices_choices⟩
  · rintro ⟨r, rfl⟩
    exact Config.ofChoices_valid r

end Sys2Proof

namespace Sys2Proof.Machine

theorem nextEvent_of_inbox_cons {s : State} {w : EventWord} {rest : List EventWord}
    (h : s.inbox = w :: rest) : nextEvent s = some (w, { s with inbox := rest }) := by
  simp only [nextEvent, h]

theorem step_of_decodeWord_ok {s t : State} {w : EventWord} {i : Instr}
    (hnext : nextEvent s = some (w, t)) (hdec : decodeWord w = .ok i) : step s = exec i t := by
  simp only [step, hnext, hdec]

/-- Settles O7: the next event is the head of the list, and its word decodes to the operation. -/
theorem stepRunsTheDecodedEvent : Obligations.StepRunsTheDecodedEvent :=
  fun _ _ _ _ hinbox hdec => step_of_decodeWord_ok (nextEvent_of_inbox_cons hinbox) hdec

end Sys2Proof.Machine
end

section
/-! PROOFS. What one operation and one step can do: the inversion of `exec` and of `step`, cited by every
proof about all operations (00_scope.md R5, 30_encoding.md R102). -/

namespace Sys2Proof.Machine

/-- The operation takes `s` to the state named: the arms of `exec` that answer a next state. -/
inductive Executes (s : State) : Instr → State → Prop
  | nop : Executes s .nop (startOp s)
  | ftick : Executes s .ftick (opFtick Config.hw s)
  | stick : Executes s .stick (opStick Config.hw s)
  | pin (id : ButtonId) (lvl : Bool) : Executes s (.pin (buttonIndex id) lvl) (opPin id lvl s)
  | adcdone (v : Byte) : Executes s (.adcdone v) (opAdcdone Config.hw v s)
  | almsw (lvl : Bool) : Executes s (.almsw lvl) (opAlmsw Config.hw lvl s)
  | hwr (addr data : Byte) : Executes s (.hwr addr data) (opHwr Config.hw addr data s)
  | hrd (addr : Byte) : Executes s (.hrd addr) (opHrd Config.hw addr s)
  | reset : Executes s .reset (opReset Config.hw s)

theorem execPin_eq_next {b : BitVec 2} {lvl : Bool} {s t : State} (h : execPin b lvl s = .next t) :
    ∃ id, b = buttonIndex id ∧ t = opPin id lvl s := by
  unfold execPin at h
  split at h
  · next id hid => exact ⟨id, buttonOf_eq_some hid, (Host.Outcome.next.inj h).symm⟩
  · cases h

/-- `Executes` is `exec` answering a next state. -/
theorem exec_eq_next_iff {i : Instr} {s t : State} : exec i s = .next t ↔ Executes s i t := by
  constructor
  · intro h
    cases i with
    | nop => exact Host.Outcome.next.inj h ▸ .nop
    | ftick => exact Host.Outcome.next.inj h ▸ .ftick
    | stick => exact Host.Outcome.next.inj h ▸ .stick
    | pin b lvl =>
      obtain ⟨id, rfl, rfl⟩ := execPin_eq_next h
      exact .pin id lvl
    | adcdone v => exact Host.Outcome.next.inj h ▸ .adcdone v
    | almsw lvl => exact Host.Outcome.next.inj h ▸ .almsw lvl
    | hwr addr data => exact Host.Outcome.next.inj h ▸ .hwr addr data
    | hrd addr => exact Host.Outcome.next.inj h ▸ .hrd addr
    | reset => exact Host.Outcome.next.inj h ▸ .reset
  · intro h
    cases h with
    | pin id lvl => simp only [exec, execPin, buttonOf_buttonIndex]
    | nop => rfl
    | ftick => rfl
    | stick => rfl
    | adcdone v => rfl
    | almsw lvl => rfl
    | hwr addr data => rfl
    | hrd addr => rfl
    | reset => rfl

/-- A step with a next state is idle, or executes an operation with its word taken from the inbox. -/
theorem step_eq_next_cases {s t : State} (h : step s = .next t) :
    t = startOp s ∨ ∃ rest i, Executes { s with inbox := rest } i t := by
  cases hin : s.inbox with
  | nil =>
    have hnext : nextEvent s = none := by simp only [nextEvent, hin]
    simp only [step, hnext, idleStep] at h
    exact .inl (Host.Outcome.next.inj h).symm
  | cons w rest =>
    have hnext := nextEvent_of_inbox_cons hin
    cases hdec : decodeWord w with
    | ok i =>
      rw [step_of_decodeWord_ok hnext hdec, exec_eq_next_iff] at h
      exact .inr ⟨rest, i, h⟩
    | error e =>
      simp only [step, hnext, hdec] at h
      cases h

end Sys2Proof.Machine
end

section
/-! PROOFS. The legalised bytes are in range, and the clock's advance keeps the time and the date in
range (20_memory.md R88-R90, 42_rtc.md R181-R184, 10_state.md R66). -/

namespace Sys2Proof.Machine

theorem modN_toNat (v : Byte) (m : Nat) : (modN v m).toNat = v.toNat % m := by
  have hle : v.toNat % m ≤ v.toNat := Nat.mod_le _ _
  have hv : v.toNat < 256 := v.isLt
  simp only [modN, BitVec.toNat_ofNat]
  exact Nat.mod_eq_of_lt (by omega)

theorem modN_lt (v : Byte) {m : Nat} (hpos : 0 < m) : (modN v m).toNat < m := by
  rw [modN_toNat]
  exact Nat.mod_lt _ hpos

theorem wrap1_toNat (v : Byte) {m : Nat} (hpos : 0 < m) (hm : m ≤ 255) :
    (wrap1 v m).toNat = (v.toNat + m - 1) % m + 1 := by
  have hlt : (v.toNat + m - 1) % m < m := Nat.mod_lt _ hpos
  simp only [wrap1, BitVec.toNat_ofNat]
  exact Nat.mod_eq_of_lt (by omega)

theorem wrap1_pos (v : Byte) {m : Nat} (hpos : 0 < m) (hm : m ≤ 255) : 1 ≤ (wrap1 v m).toNat := by
  rw [wrap1_toNat v hpos hm]
  omega

theorem wrap1_le (v : Byte) {m : Nat} (hpos : 0 < m) (hm : m ≤ 255) : (wrap1 v m).toNat ≤ m := by
  rw [wrap1_toNat v hpos hm]
  exact Nat.mod_lt _ hpos

/-- The quantised set, quantum by quantum (10_state.md R29). -/
theorem brightLevel_ofNat {c : Config} (hc : c.Valid) {k : Nat}
    (hk : c.brightMin + k * c.brightStep ≤ c.brightMax) :
    BrightLevel c (BitVec.ofNat 8 (c.brightMin + k * c.brightStep)) := by
  have hmax := hc.brightMax_le
  have hv : (BitVec.ofNat 8 (c.brightMin + k * c.brightStep)).toNat =
      c.brightMin + k * c.brightStep := by
    rw [BitVec.toNat_ofNat]
    exact Nat.mod_eq_of_lt (by omega)
  exact ⟨k, hv, by rwa [hv]⟩

theorem brightLevel_brightMin {c : Config} (hc : c.Valid) :
    BrightLevel c (BitVec.ofNat 8 c.brightMin) := by
  simpa using brightLevel_ofNat (k := 0) hc (by simpa using hc.brightMin_le)

theorem brightLevel_brightMax {c : Config} (hc : c.Valid) :
    BrightLevel c (BitVec.ofNat 8 c.brightMax) := by
  have hquanta : c.brightMin + (c.brightMax - c.brightMin) / c.brightStep * c.brightStep =
      c.brightMax := by
    rw [Nat.div_mul_cancel (Nat.dvd_of_mod_eq_zero hc.brightStep_dvd),
      Nat.add_sub_cancel' hc.brightMin_le]
  simpa only [hquanta] using brightLevel_ofNat hc hquanta.le

/-- Every legalised brightness is in the quantised set (20_memory.md R90). -/
theorem brightLevel_clampq {c : Config} (hc : c.Valid) (v : Byte) : BrightLevel c (clampq c v) := by
  unfold clampq
  split
  · exact brightLevel_brightMin hc
  · split
    · exact brightLevel_brightMax hc
    · next hmin hmax =>
      have hround := Nat.div_mul_le_self (v.toNat - c.brightMin) c.brightStep
      exact brightLevel_ofNat hc (by omega)

/-- The time and the date between the carries: the hour, the minute and the day may stand one beyond
their range, up to the bound named (42_rtc.md R181). -/
structure Clock.Bounded (hourMax minuteMax dayMax : Nat) (t : Clock) : Prop where
  hour_le : t.hour.toNat ≤ hourMax
  minute_le : t.minute.toNat ≤ minuteMax
  second_le : t.second.toNat ≤ 59
  day_pos : 1 ≤ t.day.toNat
  day_le : t.day.toNat ≤ dayMax
  month_pos : 1 ≤ t.month.toNat
  month_le : t.month.toNat ≤ 12
  year_le : t.year.toNat ≤ 99

theorem Clock.bounded_of_inRange {t : Clock} (ht : t.TimeInRange) (hd : t.DateInRange) :
    t.Bounded 23 59 31 := by
  obtain ⟨hh, hm, hs⟩ := ht
  obtain ⟨hd1, hd2, hm1, hm2, hy⟩ := hd
  exact ⟨hh, hm, hs, hd1, hd2, hm1, hm2, hy⟩

theorem Clock.Bounded.after_carrySecond {t : Clock} (h : t.Bounded 23 59 31) :
    (carrySecond t).Bounded 23 60 31 := by
  have hm := h.minute_le
  have hs := h.second_le
  unfold carrySecond
  split
  · exact { h with minute_le := by simp only; bv_omega, second_le := by simp }
  · exact { h with minute_le := by simp only; omega, second_le := by simp only; bv_omega }

theorem Clock.Bounded.after_carryMinute {t : Clock} (h : t.Bounded 23 60 31) :
    (carryMinute t).Bounded 24 59 31 := by
  have hh := h.hour_le
  have hm := h.minute_le
  unfold carryMinute
  split
  · exact { h with hour_le := by simp only; bv_omega, minute_le := by simp }
  · exact { h with hour_le := by omega, minute_le := by bv_omega }

theorem Clock.Bounded.after_carryHour {t : Clock} (h : t.Bounded 24 59 31) :
    (carryHour t).Bounded 23 59 32 := by
  have hh := h.hour_le
  have hd1 := h.day_pos
  have hd2 := h.day_le
  unfold carryHour
  split
  · exact { h with
      hour_le := by simp
      day_pos := by simp only; bv_omega
      day_le := by simp only; bv_omega }
  · exact { h with hour_le := by bv_omega, day_le := by omega }

/-- The date between the guards and the last two carries: a guard has fired at most once, because it
leaves day 1, on which none fires (42_rtc.md R182). -/
structure Clock.Guarded (t : Clock) : Prop where
  time : t.TimeInRange
  day_pos : 1 ≤ t.day.toNat
  day_le : t.day.toNat ≤ 31
  month_pos : 1 ≤ t.month.toNat
  month_le : t.month.toNat ≤ 12 ∨ t.month.toNat = 13 ∧ t.day = 1#8
  year_le : t.year.toNat ≤ 99

theorem rollDay_guarded {t : Clock} (ht : t.TimeInRange) (hmonth : t.month.toNat ≤ 12)
    (hy : t.year.toNat ≤ 99) : (rollDay t).Guarded := by
  have hnext : (t.month + 1#8).toNat = t.month.toNat + 1 := by bv_omega
  exact ⟨ht, by simp [rollDay], by simp [rollDay], by simp [rollDay, hnext],
    by simp only [rollDay, hnext, and_true]; omega, hy⟩

theorem Clock.Bounded.after_guardLongMonth {t : Clock} (h : t.Bounded 23 59 32) :
    (guardLongMonth t).Guarded := by
  obtain ⟨hh, hm, hs, hd1, hd2, hmo1, hmo2, hy⟩ := h
  unfold guardLongMonth
  split
  · exact rollDay_guarded ⟨hh, hm, hs⟩ hmo2 hy
  · exact ⟨⟨hh, hm, hs⟩, hd1, by bv_omega, hmo1, .inl hmo2, hy⟩

/-- A guard that fires on no day 1. -/
theorem Clock.Guarded.after_guard {t : Clock} (h : t.Guarded) {p : Prop} [Decidable p]
    (hp : p → t.day ≠ 1#8) : (if p then rollDay t else t).Guarded := by
  split
  · next hfires =>
    have hmonth : t.month.toNat ≤ 12 := h.month_le.resolve_right fun hday => hp hfires hday.2
    exact rollDay_guarded h.time hmonth h.year_le
  · exact h

theorem Clock.Bounded.after_dateGuards {t : Clock} (h : t.Bounded 23 59 32) :
    (dateGuards t).Guarded := by
  have hthirty : (guardThirtyDayMonth (guardLongMonth t)).Guarded :=
    h.after_guardLongMonth.after_guard fun hday => by simp [hday.1]
  have hfebruary : (guardFebruary (guardThirtyDayMonth (guardLongMonth t))).Guarded :=
    hthirty.after_guard fun hday => by simp [hday.1]
  exact hfebruary.after_guard fun hday => by simp [hday.1]

theorem Clock.Guarded.after_monthYear {t : Clock} (h : t.Guarded) :
    (monthYear t).TimeInRange ∧ (monthYear t).DateInRange := by
  obtain ⟨ht, hd1, hd2, hmo1, hmo2, hy⟩ := h
  by_cases hm : 12#8 < t.month
  · by_cases hy99 : 99#8 < t.year + 1#8
    · simp only [monthYear, if_pos hm, if_pos hy99]
      exact ⟨ht, hd1, hd2, by simp, by simp, by simp⟩
    · simp only [monthYear, if_pos hm, if_neg hy99]
      exact ⟨ht, hd1, hd2, by simp, by simp, by simp only; bv_omega⟩
  · have hy99 : ¬ 99#8 < t.year := by bv_omega
    simp only [monthYear, if_neg hm, if_neg hy99]
    exact ⟨ht, hd1, hd2, hmo1, by bv_omega, hy⟩

/-- TimeAdvance keeps every field of the time and the date in range (42_rtc.md R181-R184). -/
theorem timeAdvance_inRange {t : Clock} (ht : t.TimeInRange) (hd : t.DateInRange) :
    (timeAdvance t).TimeInRange ∧ (timeAdvance t).DateInRange :=
  (Clock.bounded_of_inRange ht hd).after_carrySecond.after_carryMinute.after_carryHour
    |>.after_dateGuards.after_monthYear

theorem Clock.load_timeInRange (c : Config) (nv : Memory) : (Clock.load c nv).TimeInRange :=
  ⟨Nat.le_of_lt_succ (modN_lt _ (by decide)),
    Nat.le_of_lt_succ (modN_lt _ (by decide)),
    Nat.le_of_lt_succ (modN_lt _ (by decide))⟩

theorem Clock.load_dateInRange (c : Config) (nv : Memory) : (Clock.load c nv).DateInRange :=
  ⟨wrap1_pos _ (by decide) (by decide), wrap1_le _ (by decide) (by decide),
    wrap1_pos _ (by decide) (by decide), wrap1_le _ (by decide) (by decide),
    Nat.le_of_lt_succ (modN_lt _ (by decide))⟩

end Sys2Proof.Machine
end

section
/-! PROOFS. What PIN makes of the one button it names (41_buttons.md R150-R153, R158). -/

namespace Sys2Proof.Machine

/-- What PressEdge makes of the button itself (41_buttons.md R152). -/
def btnPressed (x : Button) : Button :=
  if x.st = .idle ∧ x.rawPressed = false then { x with st := .settle, cnt := 0#16 } else x

/-- What ReleaseEdge makes of the button itself (41_buttons.md R153, R158). -/
def btnReleased (x : Button) : Button :=
  match x.st with
  | .idle => x
  | .settle => x
  | .down => { x with rawPressed := false, st := .idle }
  | .held => { x with rawPressed := false, held := false, st := .idle }
  | .grace => { x with rawPressed := false, justPressed := true, st := .idle }

/-- What PIN makes of the button itself: a repeated level is no edge (41_buttons.md R150, R151). -/
def btnEdge (lvl : Bool) (x : Button) : Button :=
  if lvl = x.pinLvl then x
  else if lvl then btnReleased { x with pinLvl := lvl } else btnPressed { x with pinLvl := lvl }

@[simp] theorem setButton_get (id : ButtonId) (s : State) :
    setButton id (s.buttons.get id) s = s := by
  simp only [setButton, Buttons.set_get]

@[simp] theorem setButton_setButton (id : ButtonId) (x y : Button) (s : State) :
    setButton id y (setButton id x s) = setButton id y s := by
  simp only [setButton, Buttons.set_set]

theorem pressEdge_eq (id : ButtonId) (s : State) :
    pressEdge id s = setButton id (btnPressed (s.buttons.get id)) s := by
  simp only [pressEdge, btnPressed]
  split
  · rfl
  · rw [setButton_get]

theorem releaseEdge_eq (id : ButtonId) (s : State) :
    releaseEdge id s = setButton id (btnReleased (s.buttons.get id)) s := by
  simp only [releaseEdge, btnReleased, tap]
  cases (s.buttons.get id).st with
  | idle => exact (setButton_get id s).symm
  | settle => exact (setButton_get id s).symm
  | down => rfl
  | held => rfl
  | grace => rfl

/-- PIN changes the button it names and no other register (41_buttons.md R150). -/
theorem opPin_eq (id : ButtonId) (lvl : Bool) (s : State) :
    opPin id lvl s = setButton id (btnEdge lvl (s.buttons.get id)) (startOp s) := by
  simp only [opPin, btnEdge]
  split
  · exact (setButton_get id (startOp s)).symm
  · have hlatch : ∀ x, startOp (setButton id x s) = setButton id x (startOp s) := fun _ => rfl
    cases lvl with
    | true => simp [releaseEdge_eq, hlatch]
    | false => simp [pressEdge_eq, hlatch]

end Sys2Proof.Machine
end

section
/-! PROOFS. What the operations make of the alarm sequencer, of one button and of the multiplexer keeps
the part of the invariant that speaks of it (10_state.md R66, R67). -/

namespace Sys2Proof.Machine

/-- The buzzer follows the pulse, so what BuzzerOff leaves in `buzzer_on` is 0 (43_alarm.md R228). -/
theorem Alarm.Inv.buzzer_and_not_pulse {c : Config} {x : Alarm} (h : x.Inv c) :
    (x.buzzerOn && !x.pulsePhase) = false := by
  rw [h.buzzer_pulse, Bool.and_not_self]

theorem Alarm.load_inv (c : Config) (nv : Memory) (sw : Bool) : (Alarm.load c nv sw).Inv c where
  hour_le := Nat.le_of_lt_succ (modN_lt _ (by decide))
  minute_le := Nat.le_of_lt_succ (modN_lt _ (by decide))
  buzzer_pulse := rfl
  pulse_ringing := by simp [Alarm.load]
  snooze_ringing := by simp [Alarm.load]
  ringing_enabled := by simp [Alarm.load]
  divider_lt := by simp [Alarm.load, almDivider]
  snooze_le := Nat.zero_le _

theorem Alarm.Inv.with_almswLvl {c : Config} {x : Alarm} (h : x.Inv c) (lvl : Bool) :
    { x with almswLvl := lvl }.Inv c :=
  { h with }

theorem Alarm.Inv.with_alarmH {c : Config} {x : Alarm} (h : x.Inv c) {v : Byte}
    (hv : v.toNat ≤ 23) : { x with alarmH := v }.Inv c :=
  { h with hour_le := hv }

theorem Alarm.Inv.with_alarmM {c : Config} {x : Alarm} (h : x.Inv c) {v : Byte}
    (hv : v.toNat ≤ 59) : { x with alarmM := v }.Inv c :=
  { h with minute_le := hv }

theorem Alarm.Inv.after_enable {c : Config} {x : Alarm} (h : x.Inv c) :
    { x with alarmEn := true }.Inv c :=
  { h with ringing_enabled := fun _ => rfl }

/-- The alarm's part of AlarmDisable (43_alarm.md R232). -/
theorem Alarm.Inv.after_disable {c : Config} {x : Alarm} (h : x.Inv c) :
    { x with
      alarmEn := false
      ringing := false
      snooze := 0#16
      pulsePhase := false
      buzzerOn := x.buzzerOn && !x.pulsePhase }.Inv c :=
  { h with
    buzzer_pulse := h.buzzer_and_not_pulse
    pulse_ringing := by simp
    snooze_ringing := by simp
    ringing_enabled := by simp
    snooze_le := Nat.zero_le _ }

/-- The alarm's part of SnoozeTrigger, which a press confirmed while ringing calls (43_alarm.md R227). -/
theorem Alarm.Inv.after_snoozeTrigger {c : Config} {x : Alarm} (h : x.Inv c)
    (hring : x.ringing = true) :
    { x with
      snooze := BitVec.ofNat 16 c.snoozeSecs
      pulsePhase := false
      buzzerOn := x.buzzerOn && !x.pulsePhase }.Inv c :=
  { h with
    buzzer_pulse := h.buzzer_and_not_pulse
    pulse_ringing := by simp
    snooze_ringing := fun _ => hring
    snooze_le := (BitVec.toNat_ofNat _ _).trans_le (Nat.mod_le _ _) }

/-- The alarm's part of AlarmCheck where the trigger condition holds (43_alarm.md R220). -/
theorem Alarm.Inv.after_trigger {c : Config} {x : Alarm} (h : x.Inv c) (hen : x.alarmEn = true) :
    { x with ringing := true, snooze := 0#16 }.Inv c :=
  { h with
    pulse_ringing := fun _ => ⟨rfl, rfl⟩
    snooze_ringing := fun _ => rfl
    ringing_enabled := fun _ => hen
    snooze_le := Nat.zero_le _ }

/-- The alarm's part of SnoozeStep: a running snooze means that the pulse is off (43_alarm.md R221). -/
theorem Alarm.Inv.after_countdown {c : Config} {x : Alarm} (h : x.Inv c) (hsnooze : x.snooze ≠ 0#16) :
    { x with snooze := x.snooze - 1#16 }.Inv c :=
  { h with
    pulse_ringing := fun hpulse => absurd (h.pulse_ringing hpulse).2 hsnooze
    snooze_ringing := fun _ => h.snooze_ringing hsnooze
    snooze_le := by
      have hle := h.snooze_le
      have hless : (x.snooze - 1#16).toNat ≤ x.snooze.toNat := by bv_omega
      exact le_trans hless hle }

/-- The alarm's part of a pulse flip, which AlmStep makes while ringing and not snoozed (43_alarm.md
R224). -/
theorem Alarm.Inv.after_pulseFlip {c : Config} {x : Alarm} (h : x.Inv c)
    (hactive : x.ringing = true ∧ x.snooze = 0#16) :
    { x with almDiv := 0#8, pulsePhase := !x.pulsePhase, buzzerOn := !x.pulsePhase }.Inv c :=
  { h with
    buzzer_pulse := rfl
    pulse_ringing := fun _ => hactive
    divider_lt := by simp [almDivider] }

theorem Alarm.Inv.after_count {c : Config} {x : Alarm} (h : x.Inv c)
    (hdiv : x.almDiv.toNat ≠ almDivider - 1) : { x with almDiv := x.almDiv + 1#8 }.Inv c :=
  { h with
    divider_lt := by
      have hlt := h.divider_lt
      simp only [almDivider] at hlt hdiv ⊢
      bv_omega }

theorem Button.cleared_inv {c : Config} (id : ButtonId) (lvl : Bool) :
    (Button.cleared lvl).Inv c id := by
  constructor <;> simp [Button.cleared, BtnState.isPressed]

/-- Outside HELD the flag `held` is 0 (10_state.md R67 (e)). -/
theorem Button.Inv.held_eq_false {c : Config} {id : ButtonId} {x : Button} (h : x.Inv c id)
    (hst : x.st ≠ .held) : x.held = false :=
  Bool.eq_false_iff.mpr fun hheld => hst (h.held_state hheld).2

/-- A button back in IDLE with both of its flags cleared, its pin at any level. -/
theorem Button.inv_of_idle {c : Config} {id : ButtonId} {x : Button} (hst : x.st = .idle)
    (hraw : x.rawPressed = false) (hheld : x.held = false) : x.Inv c id := by
  constructor <;> simp [hst, hraw, hheld, BtnState.isPressed]

/-- While no press is confirmed, `raw_pressed` is 0 (10_state.md R67 (f)). -/
theorem Button.Inv.rawPressed_eq_false {c : Config} {id : ButtonId} {x : Button} (h : x.Inv c id)
    (hst : x.st.isPressed = false) : x.rawPressed = false := by
  rw [← Bool.not_eq_true, ← h.pressed_iff, hst]
  exact Bool.false_ne_true

/-- Outside a confirmed press the pin may take any level. -/
theorem Button.Inv.with_pinLvl {c : Config} {id : ButtonId} {x : Button} (h : x.Inv c id) {lvl : Bool}
    (hlvl : x.st.isPressed = true → lvl = false) : { x with pinLvl := lvl }.Inv c id :=
  { h with pressed_low := hlvl }

theorem Button.Inv.with_justPressed {c : Config} {id : ButtonId} {x : Button} (h : x.Inv c id)
    (jp : Bool) : { x with justPressed := jp }.Inv c id :=
  { h with }

theorem Button.Inv.after_clearJp {c : Config} {id : ButtonId} {x : Button} (h : x.Inv c id)
    (clear : Bool) : (clearJp x clear).Inv c id := by
  unfold clearJp
  split
  · exact h.with_justPressed false
  · exact h

/-- The start of the settle interval (41_buttons.md R152). -/
theorem Button.Inv.after_press {c : Config} (hc : c.Valid) {id : ButtonId} {x : Button}
    (h : x.Inv c id) (hst : x.st = .idle) : { x with st := .settle, cnt := 0#16 }.Inv c id := by
  have hraw := h.rawPressed_eq_false (by rw [hst]; rfl)
  have hheld := h.held_eq_false (by simp [hst])
  have hpos : 0 < c.debounceTicks := hc.debounceTicks_pos
  constructor <;> simp [hraw, hheld, hpos, BtnState.isPressed]

theorem Button.Inv.after_confirm_grace {c : Config} (hc : c.Valid) {x : Button}
    (h : x.Inv c repeatBtn) (hst : x.st = .settle) (hpin : x.pinLvl = false) :
    { x with rawPressed := true, st := .grace, cnt := 0#16 }.Inv c repeatBtn := by
  have hheld := h.held_eq_false (by simp [hst])
  have hpos : 0 < c.graceTicks := hc.graceTicks_pos
  constructor <;> simp [hheld, hpin, hpos, BtnState.isPressed]

theorem Button.Inv.after_confirm_down {c : Config} {id : ButtonId} {x : Button} (h : x.Inv c id)
    (hst : x.st = .settle) (hpin : x.pinLvl = false) (hid : id ≠ repeatBtn) :
    { x with rawPressed := true, st := .down, justPressed := true }.Inv c id := by
  have hheld := h.held_eq_false (by simp [hst])
  constructor <;> simp [hheld, hpin, hid, BtnState.isPressed]

/-- The end of the grace window with the button still down (41_buttons.md R157). -/
theorem Button.Inv.after_hold {c : Config} {id : ButtonId} {x : Button} (h : x.Inv c id)
    (hst : x.st = .grace) : { x with held := true, st := .held }.Inv c id := by
  have hid := h.grace_button (.inl hst)
  have hpin := h.pressed_low (by rw [hst]; rfl)
  have hraw := h.pressed_iff.mp (by rw [hst]; rfl)
  constructor <;> simp [hid, hpin, hraw, BtnState.isPressed]

/-- One more fast tick inside the settle interval or the grace window. -/
theorem Button.Inv.after_count {c : Config} {id : ButtonId} {x : Button} (h : x.Inv c id)
    (hsettle : x.st = .settle → x.cnt.toNat + 1 ≠ c.debounceTicks)
    (hgrace : x.st = .grace → x.cnt.toNat + 1 ≠ c.graceTicks) :
    { x with cnt := x.cnt + 1#16 }.Inv c id := by
  have hle : (x.cnt + 1#16).toNat ≤ x.cnt.toNat + 1 := by bv_omega
  exact { h with
    settle_count := fun hst =>
      lt_of_le_of_lt hle (lt_of_le_of_ne (h.settle_count hst) (hsettle hst))
    grace_count := fun hst =>
      lt_of_le_of_lt hle (lt_of_le_of_ne (h.grace_count hst) (hgrace hst)) }

/-- PressEdge keeps the button's part of the invariant (41_buttons.md R152). -/
theorem Button.Inv.after_pressEdge {c : Config} (hc : c.Valid) {id : ButtonId} {x : Button}
    (h : x.Inv c id) : (btnPressed x).Inv c id := by
  unfold btnPressed
  split
  · next hidle => exact h.after_press hc hidle.1
  · exact h

/-- ReleaseEdge on a button whose pin has gone high ends its press (41_buttons.md R153, R158). -/
theorem Button.Inv.after_releaseEdge {c : Config} {id : ButtonId} {x : Button} (h : x.Inv c id) :
    (btnReleased { x with pinLvl := true }).Inv c id := by
  unfold btnReleased
  cases hst : x.st with
  | idle => simpa only [hst] using h.with_pinLvl (lvl := true) (by simp [hst, BtnState.isPressed])
  | settle => simpa only [hst] using h.with_pinLvl (lvl := true) (by simp [hst, BtnState.isPressed])
  | down => exact Button.inv_of_idle rfl rfl (h.held_eq_false (by simp [hst]))
  | held => exact Button.inv_of_idle rfl rfl rfl
  | grace => exact Button.inv_of_idle rfl rfl (h.held_eq_false (by simp [hst]))

/-- PIN keeps the button's part of the invariant (41_buttons.md R150). -/
theorem Button.Inv.after_edge {c : Config} (hc : c.Valid) {id : ButtonId} {x : Button}
    (h : x.Inv c id) (lvl : Bool) : (btnEdge lvl x).Inv c id := by
  unfold btnEdge
  split
  · exact h
  · cases lvl with
    | true => exact h.after_releaseEdge
    | false => exact (h.with_pinLvl fun _ => rfl).after_pressEdge hc

/-- BtnStep keeps the button's part of the invariant (41_buttons.md R154-R157). -/
theorem Button.Inv.after_btnStep {c : Config} (hc : c.Valid) {id : ButtonId} {x : Button}
    (h : x.Inv c id) (ringing : Bool) : (btnAfter c id ringing x).Inv c id := by
  unfold btnAfter
  cases hst : x.st with
  | idle => exact h
  | down => exact h
  | held => exact h
  | settle =>
    have hraw := h.rawPressed_eq_false (by rw [hst]; rfl)
    have hheld := h.held_eq_false (by simp [hst])
    simp only
    split
    · split
      · exact Button.inv_of_idle rfl hraw hheld
      · next hlow =>
        have hpin : x.pinLvl = false := Bool.eq_false_iff.mpr fun hhigh => hlow (.inl hhigh)
        split
        · next hid => subst hid; exact h.after_confirm_grace hc hst hpin
        · next hid => exact h.after_confirm_down hst hpin hid
    · next hcnt => simpa only [hst] using h.after_count (fun _ => hcnt) (by simp [hst])
  | grace =>
    simp only
    split
    · exact h.after_hold hst
    · next hcnt => simpa only [hst] using h.after_count (by simp [hst]) (fun _ => hcnt)

theorem nextDigit_lt {c : Config} (hc : c.Valid) {i : Nibble} (hi : i.toNat < c.nDigits) :
    (nextDigit c i).toNat < c.nDigits := by
  have hpos := hc.nDigits_pos
  unfold nextDigit
  split
  · exact hpos
  · have hle : (i + 1#4).toNat ≤ i.toNat + 1 := by bv_omega
    omega

end Sys2Proof.Machine
end

section
/-! PROOFS. Every operation keeps the invariant: one lemma per shared operation, and each operation's
proof a chain of them in the order of its parts (10_state.md R66, R67). -/

namespace Sys2Proof.Machine

section
variable {c : Config} {s : State}

theorem State.Inv.after_startOp (h : s.Inv c) : (startOp s).Inv c := { h with }

theorem State.Inv.after_emit (h : s.Inv c) (e : OutEvent) : (emit e s).Inv c := { h with }

theorem State.Inv.with_clock (h : s.Inv c) {x : Clock} (ht : x.TimeInRange) (hd : x.DateInRange) :
    { s with clock := x }.Inv c :=
  { h with time := ht, date := hd }

theorem State.Inv.with_alarm (h : s.Inv c) {x : Alarm} (hx : x.Inv c) :
    { s with alarm := x }.Inv c :=
  { h with alarm := hx }

theorem State.Inv.after_setButton (h : s.Inv c) {id : ButtonId} {x : Button} (hx : x.Inv c id) :
    (setButton id x s).Inv c :=
  { h with
    buttons := fun j => by
      rw [setButton_buttons, Buttons.get_set]
      split
      · next hj => exact hj ▸ hx
      · exact h.buttons j }

theorem State.Inv.after_nvWrite (h : s.Inv c) (a v : Byte) : (nvWrite c a v s).Inv c :=
  { h with nv_wf := nvWrite_wf h.nv_wf a v }

theorem State.Inv.after_driveBright (h : s.Inv c) {level : Byte} (hlevel : BrightLevel c level) :
    (driveBright level s).Inv c := by
  rw [driveBright_eq]
  exact { h with brightOut_level := hlevel }

theorem State.Inv.after_setIndicator (h : s.Inv c) (f : Bool) : (setIndicator c f s).Inv c :=
  { h with dispBuf_length := (List.length_modifyHead ..).trans h.dispBuf_length }

theorem State.Inv.after_alarmEnable (h : s.Inv c) : (alarmEnable s).Inv c :=
  h.with_alarm h.alarm.after_enable

theorem State.Inv.after_alarmDisable (h : s.Inv c) : (alarmDisable c s).Inv c := by
  rw [alarmDisable_eq]
  exact { h with alarm := h.alarm.after_disable }

theorem State.Inv.after_opAlmsw (h : s.Inv c) (lvl : Bool) : (opAlmsw c lvl s).Inv c := by
  have hlatch : (startOp { s with alarm := { s.alarm with almswLvl := lvl } }).Inv c :=
    (h.with_alarm (h.alarm.with_almswLvl lvl)).after_startOp
  simp only [opAlmsw]
  split
  · exact h.after_startOp
  · split
    · exact hlatch.after_alarmEnable
    · exact hlatch.after_alarmDisable

theorem State.Inv.after_opPin (hc : c.Valid) (h : s.Inv c) (id : ButtonId) (lvl : Bool) :
    (opPin id lvl s).Inv c := by
  rw [opPin_eq]
  exact h.after_startOp.after_setButton ((h.buttons id).after_edge hc lvl)

theorem State.Inv.after_muxStep (hc : c.Valid) (h : s.Inv c) : (muxStep c s).Inv c := by
  have hpos := hc.muxDivider_pos
  have hlt := h.muxDiv_lt
  rw [muxStep_eq]
  split
  · exact { h with digitIdx_lt := nextDigit_lt hc h.digitIdx_lt, muxDiv_lt := hpos }
  · have hle : (s.mux.muxDiv + 1#16).toNat ≤ s.mux.muxDiv.toNat + 1 := by bv_omega
    exact { h with muxDiv_lt := by simp only; omega }

theorem State.Inv.after_almStep (h : s.Inv c) : (almStep c s).Inv c := by
  unfold almStep
  split
  · next hactive =>
    split
    · exact (h.with_alarm (h.alarm.after_pulseFlip hactive)).after_emit _
    · next hdiv => exact h.with_alarm (h.alarm.after_count hdiv)
  · exact h

theorem State.Inv.after_btnStep (hc : c.Valid) (h : s.Inv c) (id : ButtonId) :
    (btnStep c id s).Inv c := by
  have halarm : (btnStep c id s).alarm.Inv c := by
    rw [btnStep_alarm]
    split
    · next hsnooze => exact h.alarm.after_snoozeTrigger hsnooze.1
    · exact h.alarm
  have hbuttons : ((setButton id (btnAfter c id s.alarm.ringing (s.buttons.get id)) s)).Inv c :=
    h.after_setButton ((h.buttons id).after_btnStep hc s.alarm.ringing)
  rw [btnStep_frame, btnStep_buttons]
  exact { hbuttons with alarm := halarm }

theorem State.Inv.after_opFtick (hc : c.Valid) (h : s.Inv c) : (opFtick c s).Inv c :=
  (h.after_startOp.after_muxStep hc).after_almStep
    |>.after_btnStep hc .a |>.after_btnStep hc .b |>.after_btnStep hc .c

theorem State.Inv.after_nvWriteChanged (h : s.Inv c) (a old new : Byte) :
    (nvWriteChanged c a old new s).Inv c := by
  unfold nvWriteChanged
  split
  · exact h
  · exact h.after_nvWrite a new

theorem State.Inv.after_nvWriteThrough (h : s.Inv c) (old : Clock) :
    (nvWriteThrough c old s).Inv c := by
  simp only [nvWriteThrough]
  split
  · exact h
  · exact (h.after_nvWriteChanged ..).after_nvWriteChanged .. |>.after_nvWriteChanged ..
      |>.after_nvWriteChanged .. |>.after_nvWriteChanged .. |>.after_nvWriteChanged ..

theorem State.Inv.after_render (hc : c.Valid) (h : s.Inv c) : (render c s).Inv c := by
  unfold render
  split
  · have hbuf := fun buf (hlen : buf.length = c.nDigits) =>
      show { s with dispBuf := buf }.Inv c from { h with dispBuf_length := hlen }
    exact (hbuf _ (hc.renderTime_length ..)).after_setIndicator _
  · exact h

theorem State.Inv.after_alarmCheck (h : s.Inv c) : (alarmCheck s).Inv c := by
  unfold alarmCheck
  split
  · next htrigger => exact h.with_alarm (h.alarm.after_trigger htrigger.1)
  · exact h

theorem State.Inv.after_snoozeStep (h : s.Inv c) : (snoozeStep c s).Inv c := by
  unfold snoozeStep
  split
  · exact h
  · next hsnooze => exact (h.with_alarm (h.alarm.after_countdown hsnooze)).after_setIndicator _

theorem State.Inv.after_inactStep (h : s.Inv c) : (inactStep s).Inv c := by
  rw [inactStep_eq]
  exact { h with }

theorem State.Inv.after_dimRequest (h : s.Inv c) : (dimRequest s).Inv c := by
  rw [dimRequest_eq]
  exact { h with }

theorem State.Inv.after_opStick (hc : c.Valid) (h : s.Inv c) : (opStick c s).Inv c := by
  obtain ⟨htime, hdate⟩ := timeAdvance_inRange h.time h.date
  exact (h.with_clock htime hdate).after_startOp.after_nvWriteThrough s.clock
    |>.after_render hc |>.after_alarmCheck |>.after_snoozeStep |>.after_inactStep |>.after_dimRequest

theorem State.Inv.after_opAdcdone (hc : c.Valid) (h : s.Inv c) (v : Byte) :
    (opAdcdone c v s).Inv c := by
  have hpending : (startOp { s with dimmer := { s.dimmer with adcPending := false } }).Inv c :=
    { h with }
  have hlevel : BrightLevel c (dimLevel c v s.dimmer.bright) := by
    unfold dimLevel
    split
    · exact brightLevel_brightMin hc
    · exact h.bright_level
  unfold opAdcdone dimApply
  split
  · exact hpending.after_driveBright hlevel
  · exact hpending

theorem State.Inv.after_opHrd (h : s.Inv c) (addr : Byte) : (opHrd c addr s).Inv c :=
  h.after_startOp.after_emit _

theorem State.Inv.after_writeAlmCtrl (h : s.Inv c) (data : Byte) : (writeAlmCtrl c data s).Inv c := by
  unfold writeAlmCtrl
  split
  · exact h.after_alarmEnable
  · exact h.after_alarmDisable

theorem State.Inv.after_writeBtnJp (h : s.Inv c) (data : Byte) : (writeBtnJp data s).Inv c :=
  { h with
    buttons := fun id => by
      cases id with
      | a => exact (h.buttons .a).after_clearJp _
      | b => exact (h.buttons .b).after_clearJp _
      | c => exact (h.buttons .c).after_clearJp _ }

theorem State.Inv.after_writeDispMode (h : s.Inv c) (data : Byte) : (writeDispMode data s).Inv c := by
  unfold writeDispMode
  split
  · exact { h with }
  · exact h

theorem State.Inv.after_writeBright (hc : c.Valid) (h : s.Inv c) (data : Byte) :
    (writeBright c data s).Inv c := by
  have hlevel := brightLevel_clampq hc data
  have hstored : { s with dimmer := { s.dimmer with bright := clampq c data } }.Inv c :=
    { h with bright_level := hlevel }
  exact (hstored.after_nvWrite ..).after_driveBright hlevel

theorem State.Inv.after_writeDimCtrl (h : s.Inv c) (data : Byte) : (writeDimCtrl c data s).Inv c := by
  have hstored : { s with dimmer := { s.dimmer with dimmerEn := data.getLsbD 0 } }.Inv c := { h with }
  simp only [writeDimCtrl]
  split
  · exact hstored.after_nvWrite ..
  · exact (hstored.after_nvWrite ..).after_driveBright h.bright_level

/-- A write to any register keeps the invariant: the ranged fields take legalised bytes (45_host.md
R271-R286). -/
theorem State.Inv.after_writeReg (hc : c.Valid) (h : s.Inv c) (r : HostReg) (data : Byte) :
    (writeReg c r data s).Inv c := by
  obtain ⟨hh, hm, hs⟩ := h.time
  obtain ⟨hd1, hd2, hmo1, hmo2, hy⟩ := h.date
  have hmod : ∀ {m : Nat}, 0 < m → (modN data m).toNat ≤ m - 1 := fun hpos =>
    Nat.le_sub_one_of_lt (modN_lt data hpos)
  cases r with
  | timeS =>
    have hx := h.with_clock (x := { s.clock with second := modN data 60 })
      ⟨hh, hm, hmod (by decide)⟩ h.date
    exact hx.after_nvWrite ..
  | timeM =>
    have hx := h.with_clock (x := { s.clock with minute := modN data 60 })
      ⟨hh, hmod (by decide), hs⟩ h.date
    exact hx.after_nvWrite ..
  | timeH =>
    have hx := h.with_clock (x := { s.clock with hour := modN data 24 })
      ⟨hmod (by decide), hm, hs⟩ h.date
    exact hx.after_nvWrite ..
  | dateD =>
    have hx := h.with_clock (x := { s.clock with day := wrap1 data 31 }) h.time
      ⟨wrap1_pos data (by decide) (by decide), wrap1_le data (by decide) (by decide), hmo1, hmo2, hy⟩
    exact hx.after_nvWrite ..
  | dateM =>
    have hx := h.with_clock (x := { s.clock with month := wrap1 data 12 }) h.time
      ⟨hd1, hd2, wrap1_pos data (by decide) (by decide), wrap1_le data (by decide) (by decide), hy⟩
    exact hx.after_nvWrite ..
  | dateY =>
    have hx := h.with_clock (x := { s.clock with year := modN data 100 }) h.time
      ⟨hd1, hd2, hmo1, hmo2, hmod (by decide)⟩
    exact hx.after_nvWrite ..
  | alarmM =>
    have hx := h.with_alarm (h.alarm.with_alarmM (v := modN data 60) (hmod (by decide)))
    exact hx.after_nvWrite ..
  | alarmH =>
    have hx := h.with_alarm (h.alarm.with_alarmH (v := modN data 24) (hmod (by decide)))
    exact hx.after_nvWrite ..
  | almCtrl => exact h.after_writeAlmCtrl data
  | btnJp => exact h.after_writeBtnJp data
  | dispMode => exact h.after_writeDispMode data
  | bright => exact h.after_writeBright hc data
  | dimCtrl => exact h.after_writeDimCtrl data
  | inact => exact { h with }
  | status => exact { h with }
  | volume => exact { h with nv_wf := Memory.wf_write h.nv_wf .. }
  | region => exact { h with nv_wf := Memory.wf_write h.nv_wf .. }
  | dispBuf i => exact { h with dispBuf_length := List.length_set.trans h.dispBuf_length }
  | almStat => exact h
  | snoozeL => exact h
  | snoozeH => exact h
  | btnRaw => exact h
  | btnHeld => exact h
  | brightOut => exact h

theorem State.Inv.after_opHwr (hc : c.Valid) (h : s.Inv c) (addr data : Byte) :
    (opHwr c addr data s).Inv c := by
  unfold opHwr
  cases hostReg c addr with
  | some r => exact h.after_startOp.after_writeReg hc r data
  | none => exact h.after_startOp

/-- RESET makes the invariant hold from any state whose storage is canonical (70_reset_and_hazards.md
R330). -/
theorem opReset_inv (hc : c.Valid) (hnv : Memory.wf c s.nv = true) : (opReset c s).Inv c where
  time := Clock.load_timeInRange c s.nv
  date := Clock.load_dateInRange c s.nv
  alarm := Alarm.load_inv c s.nv s.alarm.almswLvl
  buttons id := by
    simp only [opReset, Buttons.get_cleared]
    exact Button.cleared_inv id _
  digitIdx_lt := hc.nDigits_pos
  muxDiv_lt := hc.muxDivider_pos
  dispBuf_length := List.length_replicate
  bright_level := brightLevel_clampq hc _
  brightOut_level := brightLevel_clampq hc _
  nv_wf := hnv

end

/-- Every operation keeps the invariant. -/
theorem State.Inv.after_executes {i : Instr} {s t : State} (h : s.Inv Config.hw)
    (ht : Executes s i t) : t.Inv Config.hw := by
  have hc := Config.hw_valid
  cases ht with
  | nop => exact h.after_startOp
  | ftick => exact h.after_opFtick hc
  | stick => exact h.after_opStick hc
  | pin id lvl => exact h.after_opPin hc id lvl
  | adcdone v => exact h.after_opAdcdone hc v
  | almsw lvl => exact h.after_opAlmsw lvl
  | hwr addr data => exact h.after_opHwr hc addr data
  | hrd addr => exact h.after_opHrd addr
  | reset => exact opReset_inv hc h.nv_wf

/-- Settles O46: an idle step changes the output list only, and any other step executes an operation
with its word taken from the inbox, which the invariant does not speak of. -/
theorem everyStepKeepsTheInvariant : Obligations.EveryStepKeepsTheInvariant := by
  intro s t h hstep
  rcases step_eq_next_cases hstep with rfl | ⟨rest, i, hexec⟩
  · exact h.after_startOp
  · have htaken : { s with inbox := rest }.Inv Config.hw := { h with }
    exact htaken.after_executes hexec

/-- The launch state is a fixed point of RESET (70_reset_and_hazards.md R333). -/
theorem opReset_resetOf (c : Config) : opReset c (State.resetOf c) = State.resetOf c := rfl

/-- Settles O47: the state after reset is what RESET leaves, from storage with nothing written. -/
theorem resetHasTheInvariant : Obligations.ResetHasTheInvariant := by
  have h : (opReset Config.hw (State.resetOf Config.hw)).Inv Config.hw :=
    opReset_inv Config.hw_valid (Memory.wf_nil _)
  rwa [opReset_resetOf] at h

end Sys2Proof.Machine
end

section
/-! PROOFS. The writers of the display mode (10_state.md R28): what each shared operation makes of it. -/

namespace Sys2Proof.Machine

@[simp] theorem alarmDisable_mode (c : Config) (s : State) : (alarmDisable c s).mode = s.mode := by
  rw [alarmDisable_eq]

@[simp] theorem driveBright_mode (level : Byte) (s : State) : (driveBright level s).mode = s.mode := by
  rw [driveBright_eq]

@[simp] theorem muxStep_mode (c : Config) (s : State) : (muxStep c s).mode = s.mode := by
  rw [muxStep_frame]

@[simp] theorem muxStep_alarm (c : Config) (s : State) : (muxStep c s).alarm = s.alarm := by
  rw [muxStep_frame]

@[simp] theorem almStep_mode (c : Config) (s : State) : (almStep c s).mode = s.mode := by
  rw [almStep_frame]

@[simp] theorem almStep_ringing (c : Config) (s : State) :
    (almStep c s).alarm.ringing = s.alarm.ringing := by
  rw [almStep_frame]

@[simp] theorem nvWriteThrough_mode (c : Config) (old : Clock) (s : State) :
    (nvWriteThrough c old s).mode = s.mode := by
  rw [nvWriteThrough_frame]

theorem opStick_mode (c : Config) (s : State) : (opStick c s).mode = s.mode := by
  simp [opStick, dimRequest_eq, inactStep_eq, snoozeStep_eq, alarmCheck_eq, render_eq]

theorem opPin_mode (id : ButtonId) (lvl : Bool) (s : State) : (opPin id lvl s).mode = s.mode := by
  simp [opPin_eq]

theorem opAdcdone_mode (c : Config) (v : Byte) (s : State) : (opAdcdone c v s).mode = s.mode := by
  unfold opAdcdone dimApply
  split <;> simp

theorem opAlmsw_mode (c : Config) (lvl : Bool) (s : State) : (opAlmsw c lvl s).mode = s.mode := by
  simp only [opAlmsw]
  split
  · rfl
  · split <;> simp

theorem opHrd_mode (c : Config) (addr : Byte) (s : State) : (opHrd c addr s).mode = s.mode := rfl

/-- From `s` to `u` the alarm's ringing flag is kept, and the mode is kept or, while ringing, forced to
ShowSnooze (41_buttons.md R155, 43_alarm.md R227). -/
def ModeKeptOrSnoozed (s u : State) : Prop :=
  u.alarm.ringing = s.alarm.ringing ∧
    (u.mode = s.mode ∨ s.alarm.ringing = true ∧ u.mode = .showSnooze)

theorem ModeKeptOrSnoozed.after_btnStep {s u : State} (h : ModeKeptOrSnoozed s u) (c : Config)
    (id : ButtonId) : ModeKeptOrSnoozed s (btnStep c id u) := by
  obtain ⟨hring, hmode⟩ := h
  refine ⟨(btnStep_ringing c id u).trans hring, ?_⟩
  rw [btnStep_mode]
  split
  · next hsnooze => exact .inr ⟨hring ▸ hsnooze.1, rfl⟩
  · exact hmode

/-- A mode that FTICK changes is ShowSnooze, and the alarm was ringing before the tick. -/
theorem opFtick_mode_cases (c : Config) (s : State) :
    (opFtick c s).mode = s.mode ∨ s.alarm.ringing = true ∧ (opFtick c s).mode = .showSnooze := by
  have hbefore : ModeKeptOrSnoozed s (almStep c (muxStep c (startOp s))) :=
    ⟨by simp, .inl (by simp)⟩
  exact ((hbefore.after_btnStep c .a).after_btnStep c .b |>.after_btnStep c .c).2

/-- The one register whose write sets the mode is DISP_MODE (45_host.md R279). -/
theorem writeReg_mode {c : Config} {r : HostReg} (hr : r ≠ .dispMode) (data : Byte) (s : State) :
    (writeReg c r data s).mode = s.mode := by
  cases r with
  | dispMode => exact absurd rfl hr
  | almCtrl => simp only [writeReg, writeAlmCtrl]; split <;> simp
  | bright => simp [writeReg, writeBright, storeThrough]
  | dimCtrl => simp only [writeReg, writeDimCtrl]; split <;> simp [storeThrough]
  | timeS | timeM | timeH | dateD | dateM | dateY | alarmM | alarmH | volume | region => rfl
  | btnJp | inact | status | dispBuf i => rfl
  | almStat | snoozeL | snoozeH | btnRaw | btnHeld | brightOut => rfl

/-- A byte that names a mode is the mode's number (10_state.md R28). -/
theorem ofByte_eq_some {v : Byte} {m : DisplayMode} (h : DisplayMode.ofByte v = some m) :
    v.toNat ≤ 9 ∧ (m, v) ∈ modeNumbers := by
  have hv : ∀ {k : Nat}, v.toNat = k → v = BitVec.ofNat 8 k := fun hk => by
    rw [← hk, BitVec.ofNat_toNat, BitVec.setWidth_eq]
  unfold DisplayMode.ofByte at h
  split at h <;> cases h <;> next hk => rw [hv hk]; decide

theorem writeDispMode_mode_cases (data : Byte) (s : State) :
    (writeDispMode data s).mode = s.mode ∨
      data.toNat ≤ 9 ∧ ((writeDispMode data s).mode, data) ∈ modeNumbers := by
  unfold writeDispMode
  split
  · next m hm => exact .inr (ofByte_eq_some hm)
  · exact .inl rfl

/-- DISP_MODE stands at the address 0x0F only (10_state.md R55). -/
theorem addr_of_hostReg_dispMode {c : Config} {addr : Byte} (h : hostReg c addr = some .dispMode) :
    addr = 0x0F#8 := by
  unfold hostReg at h
  split at h
  case h_16 haddr => exact BitVec.eq_of_toNat_eq haddr
  all_goals simp at h

theorem opHwr_mode_cases (c : Config) (addr data : Byte) (s : State) :
    (opHwr c addr data s).mode = s.mode ∨
      addr = 0x0F#8 ∧ data.toNat ≤ 9 ∧ ((opHwr c addr data s).mode, data) ∈ modeNumbers := by
  unfold opHwr
  cases hreg : hostReg c addr with
  | none => exact .inl rfl
  | some r =>
    by_cases hr : r = .dispMode
    · subst hr
      exact (writeDispMode_mode_cases data (startOp s)).imp_right
        (And.intro (addr_of_hostReg_dispMode hreg))
    · exact .inl (writeReg_mode hr data (startOp s))

/-- Settles O50: operation by operation, the mode is left alone but for the three writers. -/
theorem modeHasThreeWriters : Obligations.ModeHasThreeWriters := by
  intro i s t hexec hmode
  cases exec_eq_next_iff.mp hexec with
  | nop => exact absurd rfl hmode
  | ftick =>
    obtain ⟨hring, hsnooze⟩ := (opFtick_mode_cases Config.hw s).resolve_left hmode
    exact .inr (.inl ⟨rfl, hring, hsnooze⟩)
  | stick => exact absurd (opStick_mode Config.hw s) hmode
  | pin id lvl => exact absurd (opPin_mode id lvl s) hmode
  | adcdone v => exact absurd (opAdcdone_mode Config.hw v s) hmode
  | almsw lvl => exact absurd (opAlmsw_mode Config.hw lvl s) hmode
  | hwr addr data =>
    obtain ⟨rfl, hle, hmem⟩ := (opHwr_mode_cases Config.hw addr data s).resolve_left hmode
    exact .inr (.inr ⟨data, rfl, hle, hmem⟩)
  | hrd addr => exact absurd (opHrd_mode Config.hw addr s) hmode
  | reset => exact .inl ⟨rfl, rfl⟩

end Sys2Proof.Machine
end

section
/-! PROOFS. No outcome depends on `adc_pending` (10_state.md R30, 44_dimmer.md R251): each shared
operation commutes with setting the flag, and the two operations that write it read nothing of it but
in writing it. -/

namespace Sys2Proof.Machine

/-- `s` with `adc_pending` made `p`. -/
def State.withPending (p : Bool) (s : State) : State :=
  { s with dimmer := { s.dimmer with adcPending := p } }

@[simp] theorem withPending_self (s : State) : s.withPending s.dimmer.adcPending = s := rfl

theorem startOp_withPending (p : Bool) (s : State) :
    startOp (s.withPending p) = (startOp s).withPending p := rfl

theorem withPending_with_clock (p : Bool) (s : State) (x : Clock) :
    { s.withPending p with clock := x } = { s with clock := x }.withPending p := rfl

theorem withPending_with_alarm (p : Bool) (s : State) (x : Alarm) :
    { s.withPending p with alarm := x } = { s with alarm := x }.withPending p := rfl

theorem storeThrough_withPending (c : Config) {setField : Byte → State → State} {p : Bool}
    (hset : ∀ v s, setField v (s.withPending p) = (setField v s).withPending p) (a v : Byte)
    (s : State) :
    storeThrough c setField a v (s.withPending p) =
      (storeThrough c setField a v s).withPending p := by
  rw [storeThrough, hset]
  rfl

theorem driveBright_withPending (level : Byte) (p : Bool) (s : State) :
    driveBright level (s.withPending p) = (driveBright level s).withPending p := by
  rw [driveBright_eq, driveBright_eq]
  rfl

theorem alarmDisable_withPending (c : Config) (p : Bool) (s : State) :
    alarmDisable c (s.withPending p) = (alarmDisable c s).withPending p := by
  rw [alarmDisable_eq, alarmDisable_eq]
  rfl

theorem muxStep_withPending (c : Config) (p : Bool) (s : State) :
    muxStep c (s.withPending p) = (muxStep c s).withPending p := by
  rw [muxStep_eq, muxStep_eq]
  rfl

theorem almStep_withPending (c : Config) (p : Bool) (s : State) :
    almStep c (s.withPending p) = (almStep c s).withPending p := by
  rw [almStep_eq, almStep_eq]
  rfl

theorem btnStep_withPending (c : Config) (id : ButtonId) (p : Bool) (s : State) :
    btnStep c id (s.withPending p) = (btnStep c id s).withPending p := by
  rw [btnStep_frame, btnStep_frame c id s]
  simp only [btnStep_buttons, btnStep_alarm, btnStep_mode, btnStep_outs]
  rfl

theorem opFtick_withPending (c : Config) (p : Bool) (s : State) :
    opFtick c (s.withPending p) = (opFtick c s).withPending p := by
  simp only [opFtick, startOp_withPending, muxStep_withPending, almStep_withPending, btnStep_withPending]

theorem nvWriteChanged_withPending (c : Config) (a old new : Byte) (p : Bool) (s : State) :
    nvWriteChanged c a old new (s.withPending p) =
      (nvWriteChanged c a old new s).withPending p := by
  unfold nvWriteChanged
  split <;> rfl

theorem nvWriteThrough_withPending (c : Config) (old : Clock) (p : Bool) (s : State) :
    nvWriteThrough c old (s.withPending p) = (nvWriteThrough c old s).withPending p := by
  have hclock : (s.withPending p).clock = s.clock := rfl
  simp only [nvWriteThrough, hclock]
  split
  · rfl
  · simp only [nvWriteChanged_withPending]

theorem render_withPending (c : Config) (p : Bool) (s : State) :
    render c (s.withPending p) = (render c s).withPending p := by
  rw [render_eq, render_eq]
  rfl

theorem alarmCheck_withPending (p : Bool) (s : State) :
    alarmCheck (s.withPending p) = (alarmCheck s).withPending p := by
  rw [alarmCheck_eq, alarmCheck_eq]
  rfl

theorem snoozeStep_withPending (c : Config) (p : Bool) (s : State) :
    snoozeStep c (s.withPending p) = (snoozeStep c s).withPending p := by
  rw [snoozeStep_eq, snoozeStep_eq]
  rfl

theorem inactStep_withPending (p : Bool) (s : State) :
    inactStep (s.withPending p) = (inactStep s).withPending p := by
  rw [inactStep_eq, inactStep_eq]
  rfl

/-- A request sets the flag whatever it was, and is made whatever it was (44_dimmer.md R250). -/
theorem dimRequest_withPending (p : Bool) (s : State) :
    dimRequest (s.withPending p) = (dimRequest s).withPending (p || s.dimmer.dimmerEn) := by
  rw [dimRequest_eq, dimRequest_eq]
  rfl

theorem opStick_withPending (c : Config) (p : Bool) (s : State) :
    ∃ q, opStick c (s.withPending p) = (opStick c s).withPending q := by
  have hclock : (s.withPending p).clock = s.clock := rfl
  simp only [opStick, hclock, withPending_with_clock, startOp_withPending,
    nvWriteThrough_withPending, render_withPending, alarmCheck_withPending, snoozeStep_withPending,
    inactStep_withPending]
  exact ⟨_, dimRequest_withPending p _⟩

theorem opPin_withPending (id : ButtonId) (lvl p : Bool) (s : State) :
    opPin id lvl (s.withPending p) = (opPin id lvl s).withPending p := by
  rw [opPin_eq, opPin_eq]
  rfl

theorem opAlmsw_withPending (c : Config) (lvl p : Bool) (s : State) :
    opAlmsw c lvl (s.withPending p) = (opAlmsw c lvl s).withPending p := by
  have halarm : (s.withPending p).alarm = s.alarm := rfl
  simp only [opAlmsw, halarm, withPending_with_alarm, startOp_withPending]
  split
  · rfl
  · cases lvl with
    | true => rfl
    | false => exact alarmDisable_withPending c p _

/-- No register that the host reads holds the flag (45_host.md R287). -/
theorem opHrd_withPending (c : Config) (addr : Byte) (p : Bool) (s : State) :
    opHrd c addr (s.withPending p) = (opHrd c addr s).withPending p := by
  have hreg : ∀ r, regByte (s.withPending p) r = regByte s r := fun r => by cases r <;> rfl
  have hbyte : hostByte c (s.withPending p) addr = hostByte c s addr := by
    simp only [hostByte, hreg]
  rw [opHrd, hbyte]
  rfl

theorem writeReg_withPending (c : Config) (r : HostReg) (data : Byte) (p : Bool) (s : State) :
    writeReg c r data (s.withPending p) = (writeReg c r data s).withPending p := by
  cases r with
  | almCtrl =>
    simp only [writeReg, writeAlmCtrl]
    split
    · rfl
    · exact alarmDisable_withPending c p s
  | dispMode =>
    simp only [writeReg, writeDispMode]
    split <;> rfl
  | bright =>
    simp only [writeReg, writeBright]
    rw [storeThrough_withPending]
    · exact driveBright_withPending _ p _
    · exact fun _ _ => rfl
  | dimCtrl =>
    simp only [writeReg, writeDimCtrl]
    rw [storeThrough_withPending]
    · split
      · rfl
      · exact driveBright_withPending _ p _
    · exact fun _ _ => rfl
  | timeS | timeM | timeH | dateD | dateM | dateY | alarmM | alarmH | volume | region => rfl
  | btnJp | inact | status | dispBuf i => rfl
  | almStat | snoozeL | snoozeH | btnRaw | btnHeld | brightOut => rfl

theorem opHwr_withPending (c : Config) (addr data : Byte) (p : Bool) (s : State) :
    opHwr c addr data (s.withPending p) = (opHwr c addr data s).withPending p := by
  unfold opHwr
  cases hostReg c addr with
  | none => rfl
  | some r => exact writeReg_withPending c r data p (startOp s)

/-- ADCDONE clears the flag before all else (44_dimmer.md R251). -/
theorem opAdcdone_withPending (c : Config) (v : Byte) (p : Bool) (s : State) :
    opAdcdone c v (s.withPending p) =
      (opAdcdone c v s).withPending (opAdcdone c v s).dimmer.adcPending := by
  rw [withPending_self]
  rfl

/-- RESET clears the flag (70_reset_and_hazards.md R330). -/
theorem opReset_withPending (c : Config) (p : Bool) (s : State) :
    opReset c (s.withPending p) = (opReset c s).withPending false := rfl

theorem Executes.congr {s t u : State} {i : Instr} (h : Executes s i t) (htu : t = u) :
    Executes s i u := htu ▸ h

/-- What an operation does from a state, it does from that state with the flag at any other value. -/
theorem Executes.withPending {i : Instr} {s t : State} (h : Executes s i t) (p : Bool) :
    ∃ q, Executes (s.withPending p) i (t.withPending q) := by
  cases h with
  | nop => exact ⟨p, .nop⟩
  | ftick => exact ⟨p, Executes.ftick.congr (opFtick_withPending Config.hw p s)⟩
  | stick => exact (opStick_withPending Config.hw p s).imp fun _ => Executes.stick.congr
  | pin id lvl => exact ⟨p, (Executes.pin id lvl).congr (opPin_withPending id lvl p s)⟩
  | adcdone v => exact ⟨_, (Executes.adcdone v).congr (opAdcdone_withPending Config.hw v p s)⟩
  | almsw lvl => exact ⟨p, (Executes.almsw lvl).congr (opAlmsw_withPending Config.hw lvl p s)⟩
  | hwr addr data =>
    exact ⟨p, (Executes.hwr addr data).congr (opHwr_withPending Config.hw addr data p s)⟩
  | hrd addr => exact ⟨p, (Executes.hrd addr).congr (opHrd_withPending Config.hw addr p s)⟩
  | reset => exact ⟨_, Executes.reset.congr (opReset_withPending Config.hw p s)⟩

/-- Settles O54: `Executes.withPending`, read back as `exec`. -/
theorem adcPendingIsNeverRead : Obligations.AdcPendingIsNeverRead := by
  intro i s t p hexec
  obtain ⟨q, hq⟩ := (exec_eq_next_iff.mp hexec).withPending p
  exact ⟨q, exec_eq_next_iff.mpr hq⟩

end Sys2Proof.Machine
end

section
/-! PROOFS. What the legalisation functions do on each part of their domain (20_memory.md R88-R91). -/

namespace Sys2Proof.Machine

/-- wrap1 is the identity on its range (20_memory.md R89). -/
theorem wrap1_of_mem_range {v : Byte} {m : Nat} (hm : m ≤ 255) (hpos : 1 ≤ v.toNat)
    (hle : v.toNat ≤ m) : wrap1 v m = v := by
  have hshift : v.toNat + m - 1 = v.toNat - 1 + m := by omega
  refine BitVec.eq_of_toNat_eq ?_
  rw [wrap1_toNat v (by omega) hm, hshift, Nat.add_mod_right, Nat.mod_eq_of_lt (by omega)]
  exact Nat.sub_add_cancel hpos

/-- wrap1 takes 0 to the top of its range (20_memory.md R89). -/
theorem wrap1_zero_toNat {m : Nat} (hpos : 0 < m) (hm : m ≤ 255) : (wrap1 0#8 m).toNat = m := by
  rw [wrap1_toNat _ hpos hm, BitVec.toNat_zero, Nat.zero_add, Nat.mod_eq_of_lt (by omega)]
  exact Nat.sub_add_cancel hpos

/-- wrap1 takes one modulus off a byte of the range above its own (20_memory.md R89). -/
theorem wrap1_toNat_of_gt {v : Byte} {m : Nat} (hpos : 0 < m) (hm : m ≤ 255)
    (hgt : m + 1 ≤ v.toNat) (hle : v.toNat ≤ 2 * m) : (wrap1 v m).toNat = v.toNat - m := by
  have hshift : v.toNat + m - 1 = v.toNat - m - 1 + m + m := by omega
  rw [wrap1_toNat v hpos hm, hshift, Nat.add_mod_right, Nat.add_mod_right,
    Nat.mod_eq_of_lt (by omega)]
  omega

theorem clampq_toNat_of_lt {c : Config} (hc : c.Valid) {v : Byte} (h : v.toNat < c.brightMin) :
    (clampq c v).toNat = c.brightMin := by
  have hmin := hc.brightMin_le
  have hmax := hc.brightMax_le
  rw [clampq, if_pos h, BitVec.toNat_ofNat]
  exact Nat.mod_eq_of_lt (by omega)

theorem clampq_toNat_of_gt {c : Config} (hc : c.Valid) {v : Byte} (h : c.brightMax < v.toNat) :
    (clampq c v).toNat = c.brightMax := by
  have hmin := hc.brightMin_le
  have hmax := hc.brightMax_le
  rw [clampq, if_neg (by omega), if_pos h, BitVec.toNat_ofNat]
  exact Nat.mod_eq_of_lt (by omega)

theorem clampq_toNat_of_mem_range {c : Config} {v : Byte} (hmin : c.brightMin ≤ v.toNat)
    (hmax : v.toNat ≤ c.brightMax) :
    (clampq c v).toNat =
      c.brightMin + (v.toNat - c.brightMin) / c.brightStep * c.brightStep := by
  have hround := Nat.div_mul_le_self (v.toNat - c.brightMin) c.brightStep
  have hv : v.toNat < 256 := v.isLt
  rw [clampq, if_neg (by omega), if_neg (by omega), BitVec.toNat_ofNat]
  exact Nat.mod_eq_of_lt (by omega)

/-- Within the range clampq rounds down, by less than one quantum (20_memory.md R90). -/
theorem clampq_le_and_lt_add_step {c : Config} (hc : c.Valid) {v : Byte}
    (hmin : c.brightMin ≤ v.toNat) (hmax : v.toNat ≤ c.brightMax) :
    (clampq c v).toNat ≤ v.toNat ∧ v.toNat < (clampq c v).toNat + c.brightStep := by
  have hround := Nat.div_mul_le_self (v.toNat - c.brightMin) c.brightStep
  have hquantum := Nat.lt_div_mul_add (a := v.toNat - c.brightMin) hc.brightStep_pos
  rw [clampq_toNat_of_mem_range hmin hmax]
  omega

theorem flag1_eq_true_iff {v : Byte} : flag1 v = true ↔ v.toNat % 2 = 1 := beq_iff_eq

/-- Settles O57: one clause for each function, and for wrap1 and clampq one for each part of the domain. -/
theorem legalisationKeepsRanges : Obligations.LegalisationKeepsRanges := by
  refine ⟨fun v m hpos _ => ⟨modN_toNat v m, modN_lt v hpos⟩, fun v m hm => ?_, fun c v hc => ?_,
    fun _ => flag1_eq_true_iff⟩
  · have hpos : 0 < m := by omega
    have hle : m ≤ 255 := by omega
    refine ⟨wrap1_pos v hpos hle, wrap1_le v hpos hle, wrap1_of_mem_range hle, ?_,
      wrap1_toNat_of_gt hpos hle⟩
    rintro rfl
    exact wrap1_zero_toNat hpos hle
  · exact ⟨brightLevel_clampq hc v, clampq_toNat_of_lt hc, clampq_toNat_of_gt hc,
      clampq_le_and_lt_add_step hc⟩

end Sys2Proof.Machine
end

section
/-! PROOFS. The writers of durable storage (20_memory.md R74, R86, 60_exceptions.md R314): which
operations leave it as it is, and which bytes STICK and a host write can change. -/

namespace Sys2Proof.Machine

@[simp] theorem alarmDisable_nv (c : Config) (s : State) : (alarmDisable c s).nv = s.nv := by
  rw [alarmDisable_eq]

@[simp] theorem driveBright_nv (level : Byte) (s : State) : (driveBright level s).nv = s.nv := by
  rw [driveBright_eq]

@[simp] theorem muxStep_nv (c : Config) (s : State) : (muxStep c s).nv = s.nv := by
  rw [muxStep_frame]

@[simp] theorem almStep_nv (c : Config) (s : State) : (almStep c s).nv = s.nv := by
  rw [almStep_frame]

@[simp] theorem btnStep_nv (c : Config) (id : ButtonId) (s : State) :
    (btnStep c id s).nv = s.nv := by
  rw [btnStep_frame]

theorem opFtick_nv (c : Config) (s : State) : (opFtick c s).nv = s.nv := by
  simp [opFtick]

theorem opPin_nv (id : ButtonId) (lvl : Bool) (s : State) : (opPin id lvl s).nv = s.nv := by
  simp [opPin_eq]

theorem opAdcdone_nv (c : Config) (v : Byte) (s : State) : (opAdcdone c v s).nv = s.nv := by
  unfold opAdcdone dimApply
  split <;> simp

theorem opAlmsw_nv (c : Config) (lvl : Bool) (s : State) : (opAlmsw c lvl s).nv = s.nv := by
  simp only [opAlmsw]
  split
  · rfl
  · split <;> simp

/-- Of the seven parts of STICK, NvWriteThrough alone writes durable storage (42_rtc.md R180, R185). -/
theorem opStick_nv (c : Config) (s : State) :
    (opStick c s).nv =
      (nvWriteThrough c s.clock (startOp { s with clock := timeAdvance s.clock })).nv := by
  simp only [opStick, dimRequest_eq, inactStep_eq, snoozeStep_eq, alarmCheck_eq, render_eq]

/-- The storage `m'` is canonical and reads as `m` does at every address that `addrs` does not list. -/
structure Memory.AgreesOutside (c : Config) (addrs : List Nat) (m m' : Memory) : Prop where
  wf : Memory.wf c m' = true
  read : ∀ a, a ∉ addrs → Memory.read c m' a = Memory.read c m a

theorem Memory.AgreesOutside.refl {c : Config} {addrs : List Nat} {m : Memory}
    (h : Memory.wf c m = true) : Memory.AgreesOutside c addrs m m := ⟨h, fun _ _ => rfl⟩

theorem Memory.AgreesOutside.after_nvWriteChanged {c : Config} {addrs : List Nat} {m : Memory}
    {s : State} (h : Memory.AgreesOutside c addrs m s.nv) {addr : Byte} (haddr : addr.toNat ∈ addrs)
    (old new : Byte) : Memory.AgreesOutside c addrs m (nvWriteChanged c addr old new s).nv := by
  unfold nvWriteChanged
  split
  · exact h
  · refine ⟨nvWrite_wf h.wf addr new, fun a ha => ?_⟩
    have hne : a ≠ addr.toNat := fun heq => ha (heq ▸ haddr)
    rw [nvWrite_read h.wf, if_neg hne, h.read a ha]

/-- The homes of the time and the date (20_memory.md R74, R86). -/
def clockHomes : List Nat := [0x00, 0x01, 0x02, 0x05, 0x06, 0x07]

/-- NvWriteThrough writes to the homes of the time and the date only (42_rtc.md R185). -/
theorem nvWriteThrough_agreesOutside {c : Config} {s : State} (h : Memory.wf c s.nv = true)
    (old : Clock) : Memory.AgreesOutside c clockHomes s.nv (nvWriteThrough c old s).nv := by
  have hstart : Memory.AgreesOutside c clockHomes s.nv s.nv := .refl h
  simp only [nvWriteThrough]
  split
  · exact hstart
  · exact hstart.after_nvWriteChanged (by decide) .. |>.after_nvWriteChanged (by decide) ..
      |>.after_nvWriteChanged (by decide) .. |>.after_nvWriteChanged (by decide) ..
      |>.after_nvWriteChanged (by decide) .. |>.after_nvWriteChanged (by decide) ..

theorem opStick_agreesOutside {c : Config} {s : State} (h : Memory.wf c s.nv = true) :
    Memory.AgreesOutside c clockHomes s.nv (opStick c s).nv := by
  have hadvanced : (startOp { s with clock := timeAdvance s.clock }).nv = s.nv := startOp_nv _
  rw [← hadvanced] at h ⊢
  rw [opStick_nv]
  exact nvWriteThrough_agreesOutside h s.clock

/-- The HOST address of a register (10_state.md R40-R63). -/
def HostReg.addr : HostReg → Nat
  | .timeS => 0x00
  | .timeM => 0x01
  | .timeH => 0x02
  | .dateD => 0x03
  | .dateM => 0x04
  | .dateY => 0x05
  | .alarmM => 0x06
  | .alarmH => 0x07
  | .almCtrl => 0x08
  | .almStat => 0x09
  | .snoozeL => 0x0A
  | .snoozeH => 0x0B
  | .btnRaw => 0x0C
  | .btnJp => 0x0D
  | .btnHeld => 0x0E
  | .dispMode => 0x0F
  | .bright => 0x10
  | .brightOut => 0x11
  | .dimCtrl => 0x12
  | .inact => 0x13
  | .status => 0x14
  | .volume => 0x15
  | .region => 0x16
  | .dispBuf i => 0x20 + i

/-- A register stands at its own address only. -/
theorem addr_toNat_of_hostReg {c : Config} {addr : Byte} {r : HostReg} (h : hostReg c addr = some r) :
    addr.toNat = r.addr := by
  unfold hostReg at h
  split at h
  case h_24 =>
    split at h
    · next hrange =>
      cases h
      exact (Nat.add_sub_cancel' hrange.1).symm
    · cases h
  all_goals
    cases h
    assumption

/-- The home in durable storage of a register that has one (20_memory.md R74). -/
def HostReg.home : HostReg → Option Byte
  | .timeS => some 0x02#8
  | .timeM => some 0x01#8
  | .timeH => some 0x00#8
  | .dateD => some 0x05#8
  | .dateM => some 0x06#8
  | .dateY => some 0x07#8
  | .alarmM => some 0x04#8
  | .alarmH => some 0x03#8
  | .bright => some 0x08#8
  | .volume => some 0x09#8
  | .region => some 0x0A#8
  | .dimCtrl => some 0x0B#8
  | .almCtrl | .almStat | .snoozeL | .snoozeH | .btnRaw | .btnJp | .btnHeld | .dispMode => none
  | .brightOut | .inact | .status | .dispBuf _ => none

/-- A write to a register without a home leaves durable storage as it is (45_host.md R272). -/
theorem writeReg_nv_of_home_eq_none {r : HostReg} (hr : r.home = none) (c : Config) (data : Byte)
    (s : State) : (writeReg c r data s).nv = s.nv := by
  cases r with
  | timeS | timeM | timeH | dateD | dateM | dateY | alarmM | alarmH => cases hr
  | bright | volume | region | dimCtrl => cases hr
  | almCtrl => simp only [writeReg, writeAlmCtrl]; split <;> simp
  | dispMode => simp only [writeReg, writeDispMode]; split <;> rfl
  | btnJp | inact | status | dispBuf i => rfl
  | almStat | snoozeL | snoozeH | btnRaw | btnHeld | brightOut => rfl

/-- A write to a register with a home is one write to durable storage, at its home (45_host.md R272). -/
theorem writeReg_nv_of_home_eq_some {r : HostReg} {a : Byte} (hr : r.home = some a) (c : Config)
    (data : Byte) (s : State) : ∃ v, (writeReg c r data s).nv = Memory.write c s.nv a.toNat v := by
  cases r with
  | timeS | timeM | timeH | dateD | dateM | dateY | alarmM | alarmH | volume | region =>
    cases hr
    exact ⟨_, rfl⟩
  | bright =>
    cases hr
    exact ⟨clampq c data, by simp [writeReg, writeBright, storeThrough]⟩
  | dimCtrl =>
    cases hr
    refine ⟨flagByte (data.getLsbD 0), ?_⟩
    simp only [writeReg, writeDimCtrl]
    split <;> simp [storeThrough]
  | almCtrl | almStat | snoozeL | snoozeH | btnRaw | btnJp | btnHeld | dispMode => cases hr
  | brightOut | inact | status | dispBuf i => cases hr

/-- The HOST addresses of the registers with a home, each with the home (20_memory.md R74). -/
def hostHomes : List (Byte × Nat) :=
  [(0x00#8, 0x02), (0x01#8, 0x01), (0x02#8, 0x00), (0x03#8, 0x05), (0x04#8, 0x06), (0x05#8, 0x07),
    (0x06#8, 0x04), (0x07#8, 0x03), (0x10#8, 0x08), (0x12#8, 0x0B), (0x15#8, 0x09), (0x16#8, 0x0A)]

theorem mem_hostHomes {c : Config} {addr a : Byte} {r : HostReg} (hreg : hostReg c addr = some r)
    (hr : r.home = some a) : (addr, a.toNat) ∈ hostHomes := by
  have haddr : addr = BitVec.ofNat 8 r.addr := by
    rw [← addr_toNat_of_hostReg hreg, BitVec.ofNat_toNat, BitVec.setWidth_eq]
  subst haddr
  cases r with
  | timeS | timeM | timeH | dateD | dateM | dateY | alarmM | alarmH => cases hr; decide
  | bright | volume | region | dimCtrl => cases hr; decide
  | almCtrl | almStat | snoozeL | snoozeH | btnRaw | btnJp | btnHeld | dispMode => cases hr
  | brightOut | inact | status | dispBuf i => cases hr

/-- A byte that a host write changes is the home of the register at its address (45_host.md R272). -/
theorem mem_hostHomes_of_opHwr_read_ne {c : Config} {addr data : Byte} {s : State} {a : Nat}
    (h : Memory.wf c s.nv = true)
    (hne : Memory.read c (opHwr c addr data s).nv a ≠ Memory.read c s.nv a) :
    (addr, a) ∈ hostHomes := by
  unfold opHwr at hne
  cases hreg : hostReg c addr with
  | none =>
    simp only [hreg] at hne
    exact absurd rfl hne
  | some r =>
    simp only [hreg] at hne
    cases hr : r.home with
    | none => exact absurd (by rw [writeReg_nv_of_home_eq_none hr, startOp_nv]) hne
    | some home =>
      obtain ⟨v, hv⟩ := writeReg_nv_of_home_eq_some hr c data (startOp s)
      rw [hv, startOp_nv] at hne
      have ha : a = home.toNat := by
        by_contra hother
        exact hne (Memory.read_write_other h hother v)
      exact ha ▸ mem_hostHomes hreg hr

/-- Settles O51: seven operations leave durable storage as it is; STICK and HWR write to the homes
listed. -/
theorem storageIsWrittenByStickAndHostOnly : Obligations.StorageIsWrittenByStickAndHostOnly := by
  intro i s t a hwf hexec hne
  have hchanged : t.nv ≠ s.nv := fun hnv => hne (by rw [hnv])
  cases exec_eq_next_iff.mp hexec with
  | nop => exact absurd rfl hchanged
  | ftick => exact absurd (opFtick_nv Config.hw s) hchanged
  | stick =>
    refine .inl ⟨rfl, ?_⟩
    by_contra hother
    exact hne ((opStick_agreesOutside hwf).read a hother)
  | pin id lvl => exact absurd (opPin_nv id lvl s) hchanged
  | adcdone v => exact absurd (opAdcdone_nv Config.hw v s) hchanged
  | almsw lvl => exact absurd (opAlmsw_nv Config.hw lvl s) hchanged
  | hwr addr data =>
    exact .inr ⟨(addr, a), mem_hostHomes_of_opHwr_read_ne hwf hne, rfl, data, rfl⟩
  | hrd addr => exact absurd rfl hchanged
  | reset => exact absurd rfl hchanged

end Sys2Proof.Machine
end

section
/-! PROOFS. Decoding inverts encoding (30_encoding.md R100-R104): what each row's decoder accepts, the
decoder as a whole, and the rows of the opcode table as masks and matches. -/

namespace Sys2Proof

/-- PIN's `a` field carries the index in its two low bits and 0 above them (30_encoding.md R101). -/
theorem extractLsb_high6_eq_zero_iff {a : Byte} :
    a.extractLsb' 2 6 = 0#6 ↔ ∃ b : BitVec 2, a = b.setWidth 8 := by
  constructor
  · intro h
    refine ⟨a.extractLsb' 0 2, ?_⟩
    have hhigh := congrArg BitVec.toNat h
    simp only [BitVec.extractLsb'_toNat, Nat.shiftRight_eq_div_pow, BitVec.toNat_ofNat] at hhigh
    apply BitVec.eq_of_toNat_eq
    simp only [BitVec.toNat_setWidth, BitVec.extractLsb'_toNat, Nat.shiftRight_eq_div_pow]
    omega
  · rintro ⟨b, rfl⟩
    apply BitVec.eq_of_toNat_eq
    simp only [BitVec.toNat_setWidth, BitVec.extractLsb'_toNat, Nat.shiftRight_eq_div_pow,
      BitVec.toNat_ofNat]
    omega

@[simp] theorem extractLsb_low2_setWidth (b : BitVec 2) : (b.setWidth 8).extractLsb' 0 2 = b := by
  apply BitVec.eq_of_toNat_eq
  simp only [BitVec.toNat_setWidth, BitVec.extractLsb'_toNat, Nat.shiftRight_eq_div_pow]
  omega

/-- The `d` field of PIN and ALMSW carries the level in bit 0 and 0 above it (30_encoding.md R101). -/
theorem extractLsb_high7_eq_zero_iff {d : Byte} :
    d.extractLsb' 1 7 = 0#7 ↔ ∃ lvl, d = levelByte lvl := by
  constructor
  · intro h
    have hhigh := congrArg BitVec.toNat h
    simp only [BitVec.extractLsb'_toNat, Nat.shiftRight_eq_div_pow, BitVec.toNat_ofNat] at hhigh
    have hd : d = 1#8 ∨ d = 0#8 := by bv_omega
    exact hd.elim (⟨true, ·⟩) (⟨false, ·⟩)
  · rintro ⟨lvl, rfl⟩
    cases lvl <;> rfl

theorem levelByte_getLsbD_zero (lvl : Bool) : (levelByte lvl).getLsbD 0 = lvl := by
  cases lvl <;> rfl

theorem decodeBare_eq_ok_iff {i j : Instr} {op a d : Byte} :
    decodeBare i op a d = .ok j ↔ a = 0#8 ∧ d = 0#8 ∧ i = j := by
  by_cases ha : a = 0#8
  · by_cases hd : d = 0#8 <;> simp [decodeBare, ha, hd]
  · simp [decodeBare, ha]

theorem decodePin_eq_ok_iff {op a d : Byte} {j : Instr} :
    decodePin op a d = .ok j ↔
      ∃ b lvl, b ≠ 3#2 ∧ a = b.setWidth 8 ∧ d = levelByte lvl ∧ j = .pin b lvl := by
  constructor
  · intro h
    unfold decodePin at h
    split at h
    · cases h
    next ha =>
    split at h
    · cases h
    next hd =>
    split at h
    · cases h
    next hb =>
    obtain ⟨b, rfl⟩ := extractLsb_high6_eq_zero_iff.mp (not_not.mp ha)
    obtain ⟨lvl, rfl⟩ := extractLsb_high7_eq_zero_iff.mp (not_not.mp hd)
    rw [extractLsb_low2_setWidth] at hb h
    rw [levelByte_getLsbD_zero] at h
    exact ⟨b, lvl, hb, rfl, rfl, (Except.ok.inj h).symm⟩
  · rintro ⟨b, lvl, hb, rfl, rfl, rfl⟩
    have ha := extractLsb_high6_eq_zero_iff.mpr ⟨b, rfl⟩
    have hd := extractLsb_high7_eq_zero_iff.mpr ⟨lvl, rfl⟩
    simp only [decodePin, ha, hd, hb, extractLsb_low2_setWidth, levelByte_getLsbD_zero, ne_eq,
      not_true_eq_false, if_false]

theorem decodeAdcdone_eq_ok_iff {op a d : Byte} {j : Instr} :
    decodeAdcdone op a d = .ok j ↔ a = 0#8 ∧ j = .adcdone d := by
  by_cases ha : a = 0#8
  · simp [decodeAdcdone, ha, eq_comm]
  · simp [decodeAdcdone, ha]

theorem decodeAlmsw_eq_ok_iff {op a d : Byte} {j : Instr} :
    decodeAlmsw op a d = .ok j ↔ ∃ lvl, a = 0#8 ∧ d = levelByte lvl ∧ j = .almsw lvl := by
  constructor
  · intro h
    unfold decodeAlmsw at h
    split at h
    · cases h
    next ha =>
    split at h
    · cases h
    next hd =>
    obtain ⟨lvl, rfl⟩ := extractLsb_high7_eq_zero_iff.mp (not_not.mp hd)
    rw [levelByte_getLsbD_zero] at h
    exact ⟨lvl, not_not.mp ha, rfl, (Except.ok.inj h).symm⟩
  · rintro ⟨lvl, rfl, rfl, rfl⟩
    have hd := extractLsb_high7_eq_zero_iff.mpr ⟨lvl, rfl⟩
    simp only [decodeAlmsw, hd, levelByte_getLsbD_zero, ne_eq, not_true_eq_false, if_false]

theorem decodeHrd_eq_ok_iff {op a d : Byte} {j : Instr} :
    decodeHrd op a d = .ok j ↔ d = 0#8 ∧ j = .hrd a := by
  by_cases hd : d = 0#8
  · simp [decodeHrd, hd, eq_comm]
  · simp [decodeHrd, hd]

/-- The fields of a well-formed operation decode to it, row by row (30_encoding.md R103). -/
theorem decodeFields_of_wellFormed {i : Instr} (h : i.wellFormed = true) :
    decodeFields i.opcode i.fieldA i.fieldD = .ok i := by
  cases i with
  | nop | ftick | stick | reset => exact decodeBare_eq_ok_iff.mpr ⟨rfl, rfl, rfl⟩
  | pin b lvl => exact decodePin_eq_ok_iff.mpr ⟨b, lvl, bne_iff_ne.mp h, rfl, rfl, rfl⟩
  | adcdone v => exact decodeAdcdone_eq_ok_iff.mpr ⟨rfl, rfl⟩
  | almsw lvl => exact decodeAlmsw_eq_ok_iff.mpr ⟨lvl, rfl, rfl, rfl⟩
  | hwr addr data => rfl
  | hrd addr => exact decodeHrd_eq_ok_iff.mpr ⟨rfl, rfl⟩

/-- Fields that decode are those of a well-formed operation, row by row (30_encoding.md R103). -/
theorem wellFormed_of_decodeFields_eq_ok {op a d : Byte} {i : Instr}
    (h : decodeFields op a d = .ok i) :
    i.wellFormed = true ∧ i.opcode = op ∧ i.fieldA = a ∧ i.fieldD = d := by
  unfold decodeFields at h
  split at h
  case h_1 hop | h_2 hop | h_3 hop | h_9 hop =>
    obtain ⟨rfl, rfl, rfl⟩ := decodeBare_eq_ok_iff.mp h
    exact ⟨rfl, BitVec.eq_of_toNat_eq hop.symm, rfl, rfl⟩
  case h_4 hop =>
    obtain ⟨b, lvl, hb, rfl, rfl, rfl⟩ := decodePin_eq_ok_iff.mp h
    exact ⟨bne_iff_ne.mpr hb, BitVec.eq_of_toNat_eq hop.symm, rfl, rfl⟩
  case h_5 hop =>
    obtain ⟨rfl, rfl⟩ := decodeAdcdone_eq_ok_iff.mp h
    exact ⟨rfl, BitVec.eq_of_toNat_eq hop.symm, rfl, rfl⟩
  case h_6 hop =>
    obtain ⟨lvl, rfl, rfl, rfl⟩ := decodeAlmsw_eq_ok_iff.mp h
    exact ⟨rfl, BitVec.eq_of_toNat_eq hop.symm, rfl, rfl⟩
  case h_7 hop =>
    cases h
    exact ⟨rfl, BitVec.eq_of_toNat_eq hop.symm, rfl, rfl⟩
  case h_8 hop =>
    obtain ⟨rfl, rfl⟩ := decodeHrd_eq_ok_iff.mp h
    exact ⟨rfl, BitVec.eq_of_toNat_eq hop.symm, rfl, rfl⟩
  case h_10 => cases h

/-- The words that decode are the words of the well-formed operations, each to its operation. -/
theorem decodeWord_eq_ok_iff {w : EventWord} {i : Instr} :
    decodeWord w = .ok i ↔ i.wellFormed = true ∧ encode i = w := by
  constructor
  · intro h
    obtain ⟨hwf, hop, ha, hd⟩ := wellFormed_of_decodeFields_eq_ok h
    exact ⟨hwf, by rw [encode, hop, ha, hd, EventWord.make_fields]⟩
  · rintro ⟨hwf, rfl⟩
    rw [decodeWord, encode, EventWord.make_op, EventWord.make_a, EventWord.make_d,
      decodeFields_of_wellFormed hwf]

/-- The byte form of a word decodes as the word does (30_encoding.md R100). -/
theorem decodeBytes_bytes_append {w : EventWord} {i : Instr} (h : decodeWord w = .ok i)
    (rest : List Byte) : decodeBytes (w.bytes ++ rest) = .ok (i, rest) := by
  have hfields : decodeFields w.op w.a w.d = .ok i := h
  simp only [EventWord.bytes, List.cons_append, List.nil_append, decodeBytes, hfields]

/-- Settles O1: a well-formed operation's word is one that decodes, by `decodeWord_eq_ok_iff`. -/
theorem decodeOfEncodeGivesTheOperation : Obligations.DecodeOfEncodeGivesTheOperation := by
  intro i hwf
  have hdec : decodeWord (encode i) = .ok i := decodeWord_eq_ok_iff.mpr ⟨hwf, rfl⟩
  exact ⟨hdec, decodeBytes_bytes_append hdec⟩

/-- Settles O2, the other direction of `decodeWord_eq_ok_iff`. -/
theorem decodedWordIsTheOperationsWord : Obligations.DecodedWordIsTheOperationsWord :=
  fun _ _ => decodeWord_eq_ok_iff.mp

/-- The per-operation family `EncodeMatchesRow`, for every operation. -/
theorem encode_and_rowMask {i : Instr} (h : i.wellFormed = true) :
    encode i &&& i.rowMask = i.rowMatch := by
  cases i with
  | nop => exact Laws.EncodeMatchesRow.nop h
  | ftick => exact Laws.EncodeMatchesRow.ftick h
  | stick => exact Laws.EncodeMatchesRow.stick h
  | pin b lvl => exact Laws.EncodeMatchesRow.pin b lvl h
  | adcdone v => exact Laws.EncodeMatchesRow.adcdone v h
  | almsw lvl => exact Laws.EncodeMatchesRow.almsw lvl h
  | hwr addr data => exact Laws.EncodeMatchesRow.hwr addr data h
  | hrd addr => exact Laws.EncodeMatchesRow.hrd addr h
  | reset => exact Laws.EncodeMatchesRow.reset h

theorem Instr.rowMask_op (i : Instr) : i.rowMask.op = 0xFF#8 := by
  cases i <;> simp only [Instr.rowMask] <;> rfl

theorem Instr.rowMatch_op (i : Instr) : i.rowMatch.op = i.opcode := by
  cases i <;> simp only [Instr.rowMatch, Instr.opcode] <;> rfl

theorem Instr.rowMatch_a (i : Instr) : i.rowMatch.a = 0#8 := by
  cases i <;> simp only [Instr.rowMatch] <;> rfl

theorem Instr.rowMatch_d (i : Instr) : i.rowMatch.d = 0#8 := by
  cases i <;> simp only [Instr.rowMatch] <;> rfl

theorem Instr.pin_rowMask_fields (b : BitVec 2) (lvl : Bool) :
    (Instr.pin b lvl).rowMask.a = 0xFC#8 ∧ (Instr.pin b lvl).rowMask.d = 0xFE#8 := by
  simp only [Instr.rowMask]
  decide

theorem Instr.adcdone_rowMask_a (v : Byte) : (Instr.adcdone v).rowMask.a = 0xFF#8 := by
  simp only [Instr.rowMask]
  rfl

theorem Instr.almsw_rowMask_fields (lvl : Bool) :
    (Instr.almsw lvl).rowMask.a = 0xFF#8 ∧ (Instr.almsw lvl).rowMask.d = 0xFE#8 := by
  simp only [Instr.rowMask]
  decide

theorem Instr.hrd_rowMask_d (addr : Byte) : (Instr.hrd addr).rowMask.d = 0xFF#8 := by
  simp only [Instr.rowMask]
  rfl

theorem byte_and_full (x : Byte) : x &&& 0xFF#8 = x := BitVec.and_allOnes

/-- A row selects the words with its opcode whose unused operand bits are 0 (30_encoding.md R102). -/
theorem fields_of_and_rowMask {w : EventWord} {i : Instr} (h : w &&& i.rowMask = i.rowMatch) :
    w.op = i.opcode ∧ w.a &&& i.rowMask.a = 0#8 ∧ w.d &&& i.rowMask.d = 0#8 := by
  refine ⟨?_, ?_, ?_⟩
  · rw [← i.rowMatch_op, ← h, EventWord.and_op, i.rowMask_op, byte_and_full]
  · rw [← EventWord.and_a, h, i.rowMatch_a]
  · rw [← EventWord.and_d, h, i.rowMatch_d]

/-- The bits that a mask selects are 0 where masking leaves 0. -/
theorem extractLsb_eq_zero_of_and {x m : Byte} {start len : Nat}
    (hmask : m.extractLsb' start len = BitVec.allOnes len) (h : x &&& m = 0#8) :
    x.extractLsb' start len = 0#len :=
  calc x.extractLsb' start len = (x &&& m).extractLsb' start len := by
        rw [BitVec.extractLsb'_and, hmask, BitVec.and_allOnes]
    _ = 0#len := by rw [h, BitVec.extractLsb'_zero]

/-- Operand fields with 0 in the bits that a row's mask selects are those of an operation of the row. -/
theorem exists_instr_of_and_rowMask {i : Instr} {a d : Byte} (ha : a &&& i.rowMask.a = 0#8)
    (hd : d &&& i.rowMask.d = 0#8) (hpin : i.opcode = 0x03#8 → a.extractLsb' 0 2 ≠ 3#2) :
    ∃ j : Instr, j.wellFormed = true ∧ j.opcode = i.opcode ∧ j.fieldA = a ∧ j.fieldD = d := by
  have hzero : ∀ {x : Byte}, x &&& 0xFF#8 = 0#8 → 0#8 = x := fun {x} hx =>
    hx.symm.trans (byte_and_full x)
  cases i with
  | nop => exact ⟨.nop, rfl, rfl, hzero ha, hzero hd⟩
  | ftick => exact ⟨.ftick, rfl, rfl, hzero ha, hzero hd⟩
  | stick => exact ⟨.stick, rfl, rfl, hzero ha, hzero hd⟩
  | pin b₀ lvl₀ =>
    obtain ⟨hmaskA, hmaskD⟩ := Instr.pin_rowMask_fields b₀ lvl₀
    rw [hmaskA] at ha
    rw [hmaskD] at hd
    obtain ⟨b, rfl⟩ :=
      extractLsb_high6_eq_zero_iff.mp (extractLsb_eq_zero_of_and (by decide) ha)
    obtain ⟨lvl, rfl⟩ :=
      extractLsb_high7_eq_zero_iff.mp (extractLsb_eq_zero_of_and (by decide) hd)
    have hb := hpin rfl
    rw [extractLsb_low2_setWidth] at hb
    exact ⟨.pin b lvl, bne_iff_ne.mpr hb, rfl, rfl, rfl⟩
  | adcdone v =>
    rw [Instr.adcdone_rowMask_a] at ha
    exact ⟨.adcdone d, rfl, rfl, hzero ha, rfl⟩
  | almsw lvl₀ =>
    obtain ⟨hmaskA, hmaskD⟩ := Instr.almsw_rowMask_fields lvl₀
    rw [hmaskA] at ha
    rw [hmaskD] at hd
    obtain ⟨lvl, rfl⟩ :=
      extractLsb_high7_eq_zero_iff.mp (extractLsb_eq_zero_of_and (by decide) hd)
    exact ⟨.almsw lvl, rfl, rfl, hzero ha, rfl⟩
  | hwr => exact ⟨.hwr a d, rfl, rfl, rfl, rfl⟩
  | hrd addr =>
    rw [Instr.hrd_rowMask_d] at hd
    exact ⟨.hrd a, rfl, rfl, rfl, hzero hd⟩
  | reset => exact ⟨.reset, rfl, rfl, hzero ha, hzero hd⟩

/-- The button index W[9:8] of a word stands in the low bits of its `a` field (30_encoding.md R102). -/
theorem EventWord.a_extractLsb_low2 (w : EventWord) :
    w.a.extractLsb' 0 2 = w.extractLsb' 8 2 := by
  apply BitVec.eq_of_toNat_eq
  simp only [EventWord.a, BitVec.extractLsb'_toNat, Nat.shiftRight_eq_div_pow]
  omega

/-- Settles O3: a word that decodes is its operation's word, which matches the row; a word that a row
selects is made of the fields of an operation of the row. -/
theorem decodeSelectsByMaskAndMatch : Obligations.DecodeSelectsByMaskAndMatch := by
  constructor
  · intro w i hdec
    obtain ⟨hwf, rfl⟩ := decodeWord_eq_ok_iff.mp hdec
    exact encode_and_rowMask hwf
  · intro w i hrow hpin
    obtain ⟨hop, ha, hd⟩ := fields_of_and_rowMask hrow
    rw [← w.a_extractLsb_low2] at hpin
    obtain ⟨j, hwf, hcode, hja, hjd⟩ := exists_instr_of_and_rowMask ha hd hpin
    refine ⟨j, decodeWord_eq_ok_iff.mpr ⟨hwf, ?_⟩, hcode⟩
    rw [encode, hcode, ← hop, hja, hjd, EventWord.make_fields]

/-- Settles O4: the worked words are computed by `encode`, and so decode; the reserved words are
computed by `decodeWord`. -/
theorem workedEncodingsDecode : Obligations.WorkedEncodingsDecode := by
  constructor
  · intro p hp
    have henc : p.2.wellFormed = true ∧ encode p.2 = p.1 := by
      revert p
      decide
    exact ⟨decodeWord_eq_ok_iff.mpr henc, henc.2⟩
  · simp only [List.forall_mem_cons]
    exact ⟨rfl, rfl, rfl, rfl, nofun⟩

end Sys2Proof

namespace Sys2Proof.Machine

theorem step_of_decodeWord_error {s t : State} {w : EventWord} {e : DecodeError}
    (hnext : nextEvent s = some (w, t)) (hdec : decodeWord w = .error e) :
    step s = .refused (.reservedWord e) := by
  simp only [step, hnext, hdec]

/-- Settles O5: a word that decoded would be the word of a well-formed operation. -/
theorem reservedWordsAreRefused : Obligations.ReservedWordsAreRefused := by
  intro s w rest hinbox hreserved
  cases hdec : decodeWord w with
  | ok i =>
    obtain ⟨hwf, henc⟩ := decodeWord_eq_ok_iff.mp hdec
    exact absurd henc (hreserved i hwf)
  | error e => exact ⟨e, rfl, step_of_decodeWord_error (nextEvent_of_inbox_cons hinbox) hdec⟩

theorem execPin_of_buttonOf_eq_none {b : BitVec 2} (h : buttonOf b = none) (lvl : Bool) (s : State) :
    execPin b lvl s = .refused .reservedButton := by
  simp only [execPin, h]

/-- Settles O6: the index 3 names no button. -/
theorem pinOfIndexThreeIsRefused : Obligations.PinOfIndexThreeIsRefused := by
  intro s lvl
  have hnone : buttonOf 3#2 = none := rfl
  exact execPin_of_buttonOf_eq_none hnone lvl s

/-- The mode register holds the mode's number (10_state.md R28). -/
theorem code_setWidth_of_mem_modeNumbers {p : DisplayMode × Byte} (h : p ∈ modeNumbers) :
    p.1.code.setWidth 8 = p.2 := by
  revert p
  decide

/-- Settles O60: row by row the expansion is the one `TraceLine.expand` writes; for SETMODE the mode's
number is that of the table. -/
theorem pseudoOperationsExpand : Obligations.PseudoOperationsExpand := by
  refine ⟨fun _ _ => rfl, fun _ => ⟨rfl, rfl⟩, fun _ => ⟨rfl, rfl⟩, fun p hp => ?_⟩
  rw [TraceLine.expand, code_setWidth_of_mem_modeNumbers hp]

end Sys2Proof.Machine
end

section
/-! PROOFS. The parts of FTICK from their rules: what its steps make of the multiplexer, and the whole
output list in the order of the steps (40_mux.md R130, R134). -/

namespace Sys2Proof.Machine

@[simp] theorem muxStep_dispBuf (c : Config) (s : State) : (muxStep c s).dispBuf = s.dispBuf := by
  rw [muxStep_frame]

@[simp] theorem muxStep_buttons (c : Config) (s : State) : (muxStep c s).buttons = s.buttons := by
  rw [muxStep_frame]

@[simp] theorem almStep_mux (c : Config) (s : State) : (almStep c s).mux = s.mux := by
  rw [almStep_frame]

@[simp] theorem almStep_dispBuf (c : Config) (s : State) : (almStep c s).dispBuf = s.dispBuf := by
  rw [almStep_frame]

@[simp] theorem almStep_buttons (c : Config) (s : State) : (almStep c s).buttons = s.buttons := by
  rw [almStep_frame]

@[simp] theorem btnStep_mux (c : Config) (id : ButtonId) (s : State) :
    (btnStep c id s).mux = s.mux := by
  rw [btnStep_frame]

@[simp] theorem btnStep_dispBuf (c : Config) (id : ButtonId) (s : State) :
    (btnStep c id s).dispBuf = s.dispBuf := by
  rw [btnStep_frame]

theorem opFtick_dispBuf (c : Config) (s : State) : (opFtick c s).dispBuf = s.dispBuf := by
  simp [opFtick]

/-- The multiplexer is stepped by its own part of FTICK only (40_mux.md R131, R132, R134). -/
theorem opFtick_mux (c : Config) (s : State) :
    (opFtick c s).mux =
      if s.mux.muxDiv.toNat = c.muxDivider - 1 then
        { digitIdx := nextDigit c s.mux.digitIdx
          muxDiv := 0#16
          dispIdxO := s.mux.digitIdx
          dispSegO := dispByte s s.mux.digitIdx.toNat
          dispValidO := true }
      else { s.mux with muxDiv := s.mux.muxDiv + 1#16 } := by
  have hmux : (opFtick c s).mux = (muxStep c (startOp s)).mux := by simp [opFtick]
  rw [hmux, muxStep_eq]
  rfl

/-- The outputs of MuxStep (40_mux.md R132). -/
def dispOuts (c : Config) (s : State) : List OutEvent :=
  if s.mux.muxDiv.toNat = c.muxDivider - 1 then
    [.disp s.mux.digitIdx (dispByte s s.mux.digitIdx.toNat)]
  else []

/-- The pulse divider expires on the next fast tick (43_alarm.md R224). -/
abbrev Alarm.Flips (x : Alarm) : Prop :=
  x.ringing = true ∧ x.snooze = 0#16 ∧ x.almDiv.toNat = almDivider - 1

/-- The outputs of AlmStep (43_alarm.md R224). -/
def flipOuts (c : Config) (x : Alarm) : List OutEvent :=
  if x.Flips then [.buzz (!x.pulsePhase) c.buzzPeriod] else []

/-- What a confirmed press adds to its click (43_alarm.md R227, R228). -/
def silenceOuts (c : Config) (x : Alarm) : List OutEvent :=
  if x.ringing = true ∧ x.pulsePhase = true then [.buzz false c.buzzPeriod] else []

/-- The outputs of the presses confirmed on one tick, `silence` being what the first of them adds to its
click (41_buttons.md R155). -/
def pressOuts (silence : List OutEvent) : List ButtonId → List OutEvent
  | [] => []
  | _ :: more => .click :: silence ++ more.map fun _ => .click

/-- Where the buzzer is silent already, every press adds its click only. -/
theorem pressOuts_of_silent (ids : List ButtonId) :
    pressOuts [] ids = ids.map fun _ => .click := by
  cases ids with
  | nil => rfl
  | cons id more => rfl

theorem muxStep_outs (c : Config) (s : State) : (muxStep c s).outs = s.outs ++ dispOuts c s := by
  rw [muxStep_eq, dispOuts]

theorem almStep_outs (c : Config) (s : State) :
    (almStep c s).outs = s.outs ++ flipOuts c s.alarm := by
  rw [almStep_eq, flipOuts]

theorem almStep_pulsePhase (c : Config) (s : State) :
    (almStep c s).alarm.pulsePhase =
      if s.alarm.Flips then !s.alarm.pulsePhase else s.alarm.pulsePhase := by
  rw [almStep_eq]

section
variable {c : Config} {id : ButtonId} {s : State}

theorem btnStep_outs_of_confirms (h : (s.buttons.get id).confirms c = true) :
    (btnStep c id s).outs = s.outs ++ .click :: silenceOuts c s.alarm := by
  rw [btnStep_outs, if_pos h, silenceOuts]

theorem btnStep_outs_of_not_confirms (h : ¬ (s.buttons.get id).confirms c = true) :
    (btnStep c id s).outs = s.outs := by
  rw [btnStep_outs, if_neg h]

/-- After a confirmed press the buzzer is silent, so that a second press of the tick adds its click
only (43_alarm.md R228). -/
theorem silenceOuts_btnStep_of_confirms (h : (s.buttons.get id).confirms c = true) :
    silenceOuts c (btnStep c id s).alarm = [] := by
  rw [btnStep_alarm, silenceOuts, if_neg]
  split
  · simp
  · next hquiet => exact fun hsounds => hquiet ⟨hsounds.1, h⟩

theorem btnStep_alarm_of_not_confirms (h : ¬ (s.buttons.get id).confirms c = true) :
    (btnStep c id s).alarm = s.alarm := by
  rw [btnStep_alarm, if_neg fun hsnooze => h hsnooze.2]

theorem btnStep_buttons_get_other {j : ButtonId} (hj : j ≠ id) :
    (btnStep c id s).buttons.get j = s.buttons.get j := by
  rw [btnStep_buttons, Buttons.get_set_other _ _ _ _ hj]

end

/-- `BtnStep` of the buttons `ids`, first to last (40_mux.md R130). -/
def btnSteps (c : Config) (ids : List ButtonId) (s : State) : State :=
  ids.foldl (fun u id => btnStep c id u) s

theorem opFtick_eq_btnSteps (c : Config) (s : State) :
    opFtick c s = btnSteps c [.a, .b, .c] (almStep c (muxStep c (startOp s))) := rfl

/-- The outputs of the button steps: the presses confirmed, in button order (41_buttons.md R155). -/
theorem btnSteps_outs (c : Config) {ids : List ButtonId} (hnodup : ids.Nodup) (s : State) :
    (btnSteps c ids s).outs =
      s.outs ++ pressOuts (silenceOuts c s.alarm)
        (ids.filter fun id => (s.buttons.get id).confirms c) := by
  induction ids generalizing s with
  | nil => exact (List.append_nil _).symm
  | cons id ids ih =>
    obtain ⟨hid, hrest⟩ := List.nodup_cons.mp hnodup
    have hlater : (ids.filter fun j => ((btnStep c id s).buttons.get j).confirms c) =
        ids.filter fun j => (s.buttons.get j).confirms c :=
      List.filter_congr fun j hj => by
        rw [btnStep_buttons_get_other (ne_of_mem_of_not_mem hj hid)]
    have htail : (btnSteps c (id :: ids) s).outs = (btnStep c id s).outs ++
        pressOuts (silenceOuts c (btnStep c id s).alarm)
          (ids.filter fun j => (s.buttons.get j).confirms c) := by
      rw [← hlater]
      exact ih hrest (btnStep c id s)
    rw [htail]
    by_cases h : (s.buttons.get id).confirms c = true
    · rw [btnStep_outs_of_confirms h, silenceOuts_btnStep_of_confirms h, List.filter_cons, if_pos h,
        pressOuts_of_silent, pressOuts, List.append_assoc]
    · rw [btnStep_outs_of_not_confirms h, btnStep_alarm_of_not_confirms h, List.filter_cons, if_neg h]

/-- The output list of FTICK: MuxStep's, AlmStep's, then the confirmed presses' on the alarm that
AlmStep leaves (40_mux.md R130). -/
theorem opFtick_outs (c : Config) (s : State) :
    (opFtick c s).outs =
      dispOuts c s ++ flipOuts c s.alarm ++
        pressOuts (silenceOuts c (almStep c (muxStep c (startOp s))).alarm)
          (s.buttons.confirmed c) := by
  have hnodup : [ButtonId.a, .b, .c].Nodup := by decide
  rw [opFtick_eq_btnSteps, btnSteps_outs c hnodup, almStep_outs, muxStep_outs]
  simp only [almStep_buttons, muxStep_buttons, muxStep_alarm, startOp_alarm]
  rfl

/-- The pulse on which a press confirmed on the tick falls (43_alarm.md R224). -/
theorem silenceOuts_almStep (c : Config) (s : State) :
    silenceOuts c (almStep c (muxStep c (startOp s))).alarm =
      if s.alarm.ringing = true ∧
          (if s.alarm.Flips then !s.alarm.pulsePhase else s.alarm.pulsePhase) = true then
        [.buzz false c.buzzPeriod] else [] := by
  simp only [silenceOuts, almStep_ringing, almStep_pulsePhase, muxStep_alarm, startOp_alarm]

/-- Settles O34: the list of `opFtick_outs`, the pulse after AlmStep written out. -/
theorem ftickOutputsInStepOrder : Obligations.FtickOutputsInStepOrder := by
  intro s
  refine ⟨opFtick Config.hw s, rfl, ?_⟩
  rw [opFtick_outs, silenceOuts_almStep]
  rfl

end Sys2Proof.Machine
end

section
/-! PROOFS. The multiplexer's part of FTICK: its pair is the one DISP, and what it does is decided by its
own registers and DISPBUF (40_mux.md R131, R132, R134). -/

namespace Sys2Proof.Machine

theorem isDisp_of_mem_flipOuts {c : Config} {x : Alarm} {e : OutEvent} (h : e ∈ flipOuts c x) :
    e.isDisp = false := by
  unfold flipOuts at h
  split at h
  · rw [List.mem_singleton.mp h]
    rfl
  · cases h

theorem isDisp_of_mem_silenceOuts {c : Config} {x : Alarm} {e : OutEvent}
    (h : e ∈ silenceOuts c x) : e.isDisp = false := by
  unfold silenceOuts at h
  split at h
  · rw [List.mem_singleton.mp h]
    rfl
  · cases h

theorem isDisp_of_mem_pressOuts {silence : List OutEvent} (hsilence : ∀ e ∈ silence, e.isDisp = false)
    {ids : List ButtonId} : ∀ e ∈ pressOuts silence ids, e.isDisp = false := by
  cases ids with
  | nil => exact nofun
  | cons id more =>
    intro e he
    rcases List.mem_append.mp he with hfirst | hlater
    · rcases List.mem_cons.mp hfirst with rfl | he
      · rfl
      · exact hsilence e he
    · obtain ⟨_, _, rfl⟩ := List.mem_map.mp hlater
      rfl

/-- The DISP of MuxStep stands first, and nothing after it is a DISP (40_mux.md R130, R132). -/
theorem opFtick_outs_eq_dispOuts_append (c : Config) (s : State) :
    ∃ rest, (opFtick c s).outs = dispOuts c s ++ rest ∧ ∀ e ∈ rest, e.isDisp = false := by
  refine ⟨_, (opFtick_outs c s).trans (List.append_assoc ..), fun e he => ?_⟩
  rcases List.mem_append.mp he with hflip | hpress
  · exact isDisp_of_mem_flipOuts hflip
  · exact isDisp_of_mem_pressOuts (fun _ => isDisp_of_mem_silenceOuts) e hpress

/-- Settles O31: the registers by `opFtick_mux`, the outputs by `opFtick_outs_eq_dispOuts_append`. -/
theorem ftickDividesAndFires : Obligations.FtickDividesAndFires := by
  intro s
  obtain ⟨rest, houts, hrest⟩ := opFtick_outs_eq_dispOuts_append Config.hw s
  refine ⟨opFtick Config.hw s, rfl, fun hfire => ?_, fun hcount => ?_⟩
  · rw [dispOuts, if_pos hfire] at houts
    rw [opFtick_mux, if_pos hfire, houts]
    exact ⟨rfl, rfl, hrest⟩
  · rw [dispOuts, if_neg hcount] at houts
    rw [opFtick_mux, if_neg hcount, houts]
    exact ⟨rfl, hrest⟩

/-- The DISP outputs of FTICK are those of MuxStep (40_mux.md R132). -/
theorem opFtick_outs_filter_isDisp (c : Config) (s : State) :
    (opFtick c s).outs.filter OutEvent.isDisp = dispOuts c s := by
  obtain ⟨rest, houts, hrest⟩ := opFtick_outs_eq_dispOuts_append c s
  have hdisp : ∀ e ∈ dispOuts c s, e.isDisp = true := by
    unfold dispOuts
    split
    · exact fun e he => by rw [List.mem_singleton.mp he]; rfl
    · exact nofun
  have hnone : rest.filter OutEvent.isDisp = [] :=
    List.filter_eq_nil_iff.mpr fun e he => Bool.eq_false_iff.mp (hrest e he)
  rw [houts, List.filter_append, List.filter_eq_self.mpr hdisp, hnone, List.append_nil]

/-- Settles O55: `opFtick_mux` and `dispOuts` name the multiplexer's registers and DISPBUF alone. -/
theorem multiplexerReadsBufferAndItselfOnly : Obligations.MultiplexerReadsBufferAndItselfOnly := by
  intro s s' hmux hbuf
  refine ⟨opFtick Config.hw s, opFtick Config.hw s', rfl, rfl, ?_, ?_⟩
  · simp only [opFtick_mux, dispByte, hmux, hbuf]
  · simp only [opFtick_outs_filter_isDisp, dispOuts, dispByte, hmux, hbuf]

end Sys2Proof.Machine
end

section
/-! PROOFS. Fast ticks in a row: the multiplexer's registers after each of them, as an invariant indexed
by the number of ticks (40_mux.md R136). -/

namespace Sys2Proof.Machine

/-- The position after `i` is `i + 1` modulo the digit count (40_mux.md R132). -/
theorem nextDigit_toNat {c : Config} (hc : c.Valid) {i : Nibble} (hi : i.toNat < c.nDigits) :
    (nextDigit c i).toNat = (i.toNat + 1) % c.nDigits := by
  have hle := hc.nDigits_le
  unfold nextDigit
  split
  · next hlast =>
    have hwrap : i.toNat + 1 = c.nDigits := by omega
    rw [hwrap, Nat.mod_self]
    rfl
  · have hsucc : (i + 1#4).toNat = i.toNat + 1 := by bv_omega
    rw [hsucc, Nat.mod_eq_of_lt (by omega)]

/-- What `k` fast ticks from the multiplexer's reset values leave over the buffer `buf`, `k / MUX_DIVIDER`
being the number of firings (40_mux.md R136). -/
structure Scanned (c : Config) (buf : List Byte) (k : Nat) (s : State) : Prop where
  dispBuf_eq : s.dispBuf = buf
  muxDiv_eq : s.mux.muxDiv.toNat = k % c.muxDivider
  digitIdx_eq : s.mux.digitIdx.toNat = k / c.muxDivider % c.nDigits
  valid_iff : s.mux.dispValidO = true ↔ 0 < k / c.muxDivider
  latched : 0 < k / c.muxDivider →
    s.mux.dispIdxO.toNat = (k / c.muxDivider - 1) % c.nDigits ∧
      s.mux.dispSegO = buf.getD s.mux.dispIdxO.toNat 0#8

theorem Scanned.of_reset_values {c : Config} {s : State} (h : s.mux = ⟨0#4, 0#16, 0#4, 0#8, false⟩) :
    Scanned c s.dispBuf 0 s where
  dispBuf_eq := rfl
  muxDiv_eq := by simp [h]
  digitIdx_eq := by simp [h]
  valid_iff := by simp [h]
  latched := by simp

section
variable {c : Config} {buf : List Byte} {k : Nat} {s : State}

/-- A tick on which the divider wraps is one more firing. -/
theorem Scanned.after_fire (hc : c.Valid) (h : Scanned c buf k s)
    (hfire : s.mux.muxDiv.toNat = c.muxDivider - 1) : Scanned c buf (k + 1) (opFtick c s) := by
  have hidx : s.mux.digitIdx.toNat < c.nDigits := h.digitIdx_eq ▸ Nat.mod_lt _ hc.nDigits_pos
  have hmod : (k + 1) % c.muxDivider = 0 := by
    rw [← Nat.mod_add_mod, ← h.muxDiv_eq, hfire, Nat.sub_add_cancel hc.muxDivider_pos, Nat.mod_self]
  have hdiv : (k + 1) / c.muxDivider = k / c.muxDivider + 1 := Nat.succ_div_of_mod_eq_zero hmod
  have hmux := opFtick_mux c s
  rw [if_pos hfire] at hmux
  exact
    { dispBuf_eq := (opFtick_dispBuf c s).trans h.dispBuf_eq
      muxDiv_eq := by rw [hmux, hmod]; rfl
      digitIdx_eq := by
        rw [hmux, hdiv]
        simp only [nextDigit_toNat hc hidx, h.digitIdx_eq, Nat.mod_add_mod]
      valid_iff := by simp [hmux, hdiv]
      latched := fun _ => by
        rw [hmux, hdiv, Nat.add_sub_cancel]
        exact ⟨h.digitIdx_eq, by rw [dispByte, h.dispBuf_eq]⟩ }

/-- Every other tick counts and leaves the number of firings as it is. -/
theorem Scanned.after_count (hc : c.Valid) (h : Scanned c buf k s)
    (hcount : s.mux.muxDiv.toNat ≠ c.muxDivider - 1) : Scanned c buf (k + 1) (opFtick c s) := by
  have hle := hc.muxDivider_le
  have hlt : s.mux.muxDiv.toNat < c.muxDivider := h.muxDiv_eq ▸ Nat.mod_lt _ hc.muxDivider_pos
  have hsucc : (s.mux.muxDiv + 1#16).toNat = s.mux.muxDiv.toNat + 1 := by bv_omega
  have hmod : (k + 1) % c.muxDivider = s.mux.muxDiv.toNat + 1 := by
    rw [← Nat.mod_add_mod, ← h.muxDiv_eq]
    exact Nat.mod_eq_of_lt (by omega)
  have hdiv : (k + 1) / c.muxDivider = k / c.muxDivider :=
    Nat.succ_div_of_mod_ne_zero (by omega)
  have hmux := opFtick_mux c s
  rw [if_neg hcount] at hmux
  exact
    { dispBuf_eq := (opFtick_dispBuf c s).trans h.dispBuf_eq
      muxDiv_eq := by rw [hmux, hmod, hsucc]
      digitIdx_eq := by rw [hmux, hdiv]; exact h.digitIdx_eq
      valid_iff := by rw [hmux, hdiv]; exact h.valid_iff
      latched := by rw [hmux, hdiv]; exact h.latched }

/-- One more fast tick (40_mux.md R131). -/
theorem Scanned.after_opFtick (hc : c.Valid) (h : Scanned c buf k s) :
    Scanned c buf (k + 1) (opFtick c s) := by
  by_cases hfire : s.mux.muxDiv.toNat = c.muxDivider - 1
  · exact h.after_fire hc hfire
  · exact h.after_count hc hfire

end

/-- An indexed invariant that every execution of `i` moves on by one holds, moved on by `k`, after `k`
executions. -/
theorem execTimes_induction {i : Instr} {P : Nat → State → Prop}
    (hstep : ∀ {j s}, P j s → ∃ t, exec i s = .next t ∧ P (j + 1) t) (k : Nat) {j : Nat} {s : State}
    (h : P j s) : ∃ t, execTimes i k s = .next t ∧ P (j + k) t := by
  induction k generalizing j s with
  | zero => exact ⟨s, rfl, h⟩
  | succ k ih =>
    obtain ⟨u, hexec, hu⟩ := hstep h
    obtain ⟨t, htimes, ht⟩ := ih hu
    exact ⟨t, by simp only [execTimes, hexec, htimes], by rwa [Nat.add_right_comm] at ht⟩

/-- Settles O36: the reset values are `Scanned` at 0, and each fast tick moves the index on by one. -/
theorem fastTicksScanThePositionsCyclically : Obligations.FastTicksScanThePositionsCyclically := by
  intro k s hreset
  have hstep : ∀ {j u}, Scanned Config.hw s.dispBuf j u →
      ∃ t, exec .ftick u = .next t ∧ Scanned Config.hw s.dispBuf (j + 1) t :=
    fun h => ⟨_, rfl, h.after_opFtick Config.hw_valid⟩
  obtain ⟨t, htimes, ht⟩ := execTimes_induction hstep k (Scanned.of_reset_values hreset)
  rw [Nat.zero_add] at ht
  have hfired : 0 < k / Config.hw.muxDivider ↔ Config.hw.muxDivider ≤ k :=
    Nat.div_pos_iff.trans (and_iff_right Config.hw_valid.muxDivider_pos)
  exact ⟨t, htimes, ht.dispBuf_eq, ht.muxDiv_eq, ht.digitIdx_eq, ht.valid_iff.trans hfired,
    fun hk => ht.latched (hfired.mpr hk)⟩

end Sys2Proof.Machine
end

section
/-! PROOFS. PIN and FTICK, button by button: PIN as one update of the button it names, and FTICK as
`btnAfter` of each button with the alarm's `ringing` (41_buttons.md R150-R159). -/

namespace Sys2Proof.Machine

/-- The stored level is no edge (41_buttons.md R151). -/
theorem btnEdge_pinLvl (x : Button) : btnEdge x.pinLvl x = x := if_pos rfl

/-- The edge from high to low is a press edge (41_buttons.md R150). -/
theorem btnEdge_false_of_high {x : Button} (h : x.pinLvl = true) :
    btnEdge false x = btnPressed { x with pinLvl := false } := by
  simp [btnEdge, h]

/-- The edge from low to high is a release edge (41_buttons.md R150). -/
theorem btnEdge_true_of_low {x : Button} (h : x.pinLvl = false) :
    btnEdge true x = btnReleased { x with pinLvl := true } := by
  simp [btnEdge, h]

theorem exec_pin_eq (id : ButtonId) (lvl : Bool) (s : State) :
    exec (.pin (buttonIndex id) lvl) s =
      .next { s with
        buttons := s.buttons.set id (btnEdge lvl (s.buttons.get id))
        outs := [] } := by
  rw [exec_eq_next_iff.mpr (.pin id lvl), opPin_eq]
  rfl

/-- PIN changes the buttons only, and of them the one it names (41_buttons.md R150, R159). -/
theorem exec_pin_changes_named_button {s : State} {id : ButtonId} {lvl : Bool} {y : Button}
    (hedge : btnEdge lvl (s.buttons.get id) = y) :
    ∃ bs, exec (.pin (buttonIndex id) lvl) s = .next { s with buttons := bs, outs := [] } ∧
      (∀ j, j ≠ id → bs.get j = s.buttons.get j) ∧ bs.get id = y :=
  ⟨_, exec_pin_eq id lvl s, fun j hj => Buttons.get_set_other _ id j _ hj,
    (Buttons.get_set_same _ id _).trans hedge⟩

/-- Settles O22: the stored level is no edge, so the named button is set to what it was. -/
theorem pinRepeatingALevelChangesNothing : Obligations.PinRepeatingALevelChangesNothing := by
  intro s id
  rw [exec_pin_eq, btnEdge_pinLvl, Buttons.set_get]

/-- Settles O23: the edge is a press edge, which looks at the state of the machine and the recorded
press, and not at the latch. -/
theorem pinPressEdgeStartsTheSettleInterval :
    Obligations.PinPressEdgeStartsTheSettleInterval :=
  fun _ _ hhigh => exec_pin_changes_named_button (btnEdge_false_of_high hhigh)

/-- Settles O24: the edge is a release edge, and the five states of the machine are the cases of
`btnReleased`, the latch being raised in each of them. -/
theorem pinReleaseEdgeEndsThePress : Obligations.PinReleaseEdgeEndsThePress :=
  fun _ _ hlow => exec_pin_changes_named_button (btnEdge_true_of_low hlow)

/-- FTICK steps every button once, by its own BtnStep: the steps of the other buttons leave it and
`ringing` as they are (40_mux.md R130, 41_buttons.md R159). -/
theorem opFtick_buttons_get (c : Config) (s : State) (id : ButtonId) :
    (opFtick c s).buttons.get id = btnAfter c id s.alarm.ringing (s.buttons.get id) := by
  have hstepped : (opFtick c s).buttons.get id =
      btnAfter c id (almStep c (muxStep c (startOp s))).alarm.ringing
        ((almStep c (muxStep c (startOp s))).buttons.get id) := by
    cases id <;> simp [opFtick, btnStep_buttons, Buttons.get_set]
  simpa using hstepped

/-- Settles O33: the case list is that of `btnAfter`, `REPEAT_BTN` being Button C. -/
theorem ftickStepsEachButton : Obligations.FtickStepsEachButton := by
  intro s
  refine ⟨opFtick Config.hw s, rfl, fun id => ?_⟩
  rw [opFtick_buttons_get]
  rfl

/-- Settles O56: `btnAfter` takes the button and `ringing`, and nothing else of the state. -/
theorem buttonsAreIndependent : Obligations.ButtonsAreIndependent := by
  intro s s' id hbutton hringing
  refine ⟨opFtick Config.hw s, opFtick Config.hw s', rfl, rfl, ?_⟩
  rw [opFtick_buttons_get, opFtick_buttons_get, hbutton, hringing]

end Sys2Proof.Machine
end

section
/-! PROOFS. TimeAdvance said once, part by part: the carries as a case split on the time of day, the four
date guards as one roll to the next month, and what both make of the second of the day and of the date
(42_rtc.md R181-R184, R189). -/

namespace Sys2Proof.Machine

/-- The time and the date after the three carries, before the date guards (42_rtc.md R181). -/
def Clock.carried (t : Clock) : Clock := carryHour (carryMinute (carrySecond t))

/-- A carry goes on while the field stands at its last value. -/
theorem Clock.carried_eq {t : Clock} (h : t.TimeInRange) :
    t.carried =
      if t.second ≠ 59#8 then { t with second := t.second + 1#8 }
      else if t.minute ≠ 59#8 then { t with second := 0#8, minute := t.minute + 1#8 }
      else if t.hour ≠ 23#8 then { t with second := 0#8, minute := 0#8, hour := t.hour + 1#8 }
      else { t with second := 0#8, minute := 0#8, hour := 0#8, day := t.day + 1#8 } := by
  obtain ⟨hh, hm, hs⟩ := h
  have hsecond : 60#8 ≤ t.second + 1#8 ↔ t.second = 59#8 := by bv_omega
  have hminute : ¬ 60#8 ≤ t.minute := by bv_omega
  have hminuteNext : 60#8 ≤ t.minute + 1#8 ↔ t.minute = 59#8 := by bv_omega
  have hhour : ¬ 24#8 ≤ t.hour := by bv_omega
  have hhourNext : 24#8 ≤ t.hour + 1#8 ↔ t.hour = 23#8 := by bv_omega
  simp only [Clock.carried, carrySecond, hsecond]
  by_cases hs59 : t.second = 59#8
  · by_cases hm59 : t.minute = 59#8
    · by_cases hh23 : t.hour = 23#8 <;> simp [carryMinute, carryHour, hs59, hm59, hh23, hhourNext]
    · simp [carryMinute, carryHour, hs59, hm59, hminuteNext, hhour]
  · simp [carryMinute, carryHour, hs59, hminute, hhour]

/-- The carries move the second of the day on by one, modulo a day. -/
theorem Clock.carried_time {t : Clock} (h : t.TimeInRange) :
    t.carried.TimeInRange ∧ t.carried.secondOfDay = (t.secondOfDay + 1) % 86400 := by
  rw [Clock.carried_eq h]
  obtain ⟨hh, hm, hs⟩ := h
  simp only [Clock.TimeInRange, Clock.secondOfDay]
  split
  · next hs59 => simp only; bv_omega
  · split
    · next hm59 => simp only; bv_omega
    · split
      · next hh23 => simp only; bv_omega
      · next hs59 hm59 hh23 => simp only; bv_omega

/-- 23:59:59 is the second 86399 of the day. -/
theorem Clock.secondOfDay_eq_last_iff {t : Clock} (h : t.TimeInRange) :
    t.secondOfDay = 86399 ↔ t.second = 59#8 ∧ t.minute = 59#8 ∧ t.hour = 23#8 := by
  obtain ⟨hh, hm, hs⟩ := h
  simp only [Clock.secondOfDay, ← BitVec.toNat_inj, BitVec.toNat_ofNat]
  omega

/-- The carries move the day on at 23:59:59 and leave the month and the year. -/
theorem Clock.carried_date {t : Clock} (h : t.TimeInRange) :
    t.carried.day = (if t.secondOfDay = 86399 then t.day + 1#8 else t.day) ∧
      t.carried.month = t.month ∧ t.carried.year = t.year := by
  simp only [Clock.carried_eq h, Clock.secondOfDay_eq_last_iff h]
  by_cases hs : t.second = 59#8
  · by_cases hm : t.minute = 59#8
    · by_cases hh : t.hour = 23#8 <;> simp [hs, hm, hh]
    · simp [hs, hm]
  · simp [hs]

/-- The condition of some date guard holds (42_rtc.md R182). -/
abbrev Clock.Rolls (t : Clock) : Prop :=
  31#8 < t.day ∨ (t.day = 31#8 ∧ thirtyDayMonth t.month = true) ∨ (t.day = 30#8 ∧ t.month = 2#8) ∨
    (t.day = 29#8 ∧ t.month = 2#8 ∧ leap t.year = false)

/-- The guard that fires first leaves day 1, on which no later guard fires (42_rtc.md R182). -/
theorem dateGuards_eq (t : Clock) : dateGuards t = if t.Rolls then rollDay t else t := by
  have hthirty : guardThirtyDayMonth (rollDay t) = rollDay t := if_neg (by simp [rollDay])
  have hfebruary : guardFebruary (rollDay t) = rollDay t := if_neg (by simp [rollDay])
  have hshort : guardShortFebruary (rollDay t) = rollDay t := if_neg (by simp [rollDay])
  by_cases hlong : 31#8 < t.day
  · rw [dateGuards, guardLongMonth, if_pos hlong, hthirty, hfebruary, hshort, if_pos (.inl hlong)]
  · by_cases h31 : t.day = 31#8 ∧ thirtyDayMonth t.month = true
    · rw [dateGuards, guardLongMonth, if_neg hlong, guardThirtyDayMonth, if_pos h31, hfebruary, hshort,
        if_pos (.inr (.inl h31))]
    · by_cases h30 : t.day = 30#8 ∧ t.month = 2#8
      · rw [dateGuards, guardLongMonth, if_neg hlong, guardThirtyDayMonth, if_neg h31, guardFebruary,
          if_pos h30, hshort, if_pos (.inr (.inr (.inl h30)))]
      · rw [dateGuards, guardLongMonth, if_neg hlong, guardThirtyDayMonth, if_neg h31, guardFebruary,
          if_neg h30, guardShortFebruary]
        simp only [Clock.Rolls, hlong, h31, h30, false_or]

/-- Over the years 0..99 the leap years are the multiples of 4 (42_rtc.md R183). -/
theorem leap_eq_false_iff {y : Byte} (hy : y.toNat ≤ 99) : leap y = false ↔ y.toNat % 4 ≠ 0 := by
  simp only [leap, leapYear, Bool.or_eq_false_iff, Bool.and_eq_false_iff, beq_eq_false_iff_ne,
    bne_eq_false_iff_eq]
  omega

theorem thirtyDayMonth_iff {m : Byte} : thirtyDayMonth m = true ↔ m.toNat ∈ [4, 6, 9, 11] := by
  simp [thirtyDayMonth, ← BitVec.toNat_inj, or_assoc]

/-- The date guards in numbers: 42_rtc.md R182 on a day, a month and a year up to 99. -/
abbrev RollsAt (day month year : Nat) : Prop :=
  31 < day ∨ (day = 31 ∧ month ∈ [4, 6, 9, 11]) ∨ (day = 30 ∧ month = 2) ∨
    (day = 29 ∧ month = 2 ∧ year % 4 ≠ 0)

theorem Clock.rolls_iff {t : Clock} (hy : t.year.toNat ≤ 99) :
    t.Rolls ↔ RollsAt t.day.toNat t.month.toNat t.year.toNat := by
  simp [Clock.Rolls, RollsAt, leap_eq_false_iff hy, thirtyDayMonth_iff, BitVec.lt_def,
    ← BitVec.toNat_inj]

/-- No guard fires on a day that its month has. -/
theorem not_rollsAt_of_le {day : Nat} {month year : Byte} (h : day ≤ monthLength month year) :
    ¬ RollsAt day month.toNat year.toNat := by
  simp only [monthLength, RollsAt, List.mem_cons, List.not_mem_nil, or_false] at h ⊢
  split at h <;> split at h <;> omega

/-- Some guard fires on the day after the last of a month. -/
theorem rollsAt_monthLength_succ (month year : Byte) :
    RollsAt (monthLength month year + 1) month.toNat year.toNat := by
  simp only [monthLength, RollsAt, List.mem_cons, List.not_mem_nil, or_false]
  split <;> split <;> omega

/-- The first day of the month after that of `t`, as a date (42_rtc.md R182, R184). -/
def Clock.firstOfNextMonth (t : Clock) : Nat × Nat × Nat :=
  if t.month.toNat < 12 then (1, t.month.toNat + 1, t.year.toNat)
  else (1, 1, if t.year.toNat < 99 then t.year.toNat + 1 else 0)

/-- The day that the date guards see: after the carry of the hour (42_rtc.md R181, R182). -/
def Clock.guardDay (t : Clock) : Nat :=
  if t.secondOfDay = 86399 then t.day.toNat + 1 else t.day.toNat

/-- What the date guards and the last two carries make of the date (42_rtc.md R182, R184). -/
def Clock.guardedDate (t : Clock) : Nat × Nat × Nat :=
  if RollsAt t.guardDay t.month.toNat t.year.toNat then t.firstOfNextMonth
  else (t.guardDay, t.month.toNat, t.year.toNat)

theorem monthYear_of_le {t : Clock} (hm : t.month.toNat ≤ 12) (hy : t.year.toNat ≤ 99) :
    monthYear t = t := by
  have hmonth : ¬ 12#8 < t.month := by bv_omega
  have hyear : ¬ 99#8 < t.year := by bv_omega
  simp only [monthYear, if_neg hmonth, if_neg hyear]

theorem monthYear_rollDay_date {t : Clock} (hm : t.month.toNat ≤ 12) (hy : t.year.toNat ≤ 99) :
    (monthYear (rollDay t)).date = t.firstOfNextMonth := by
  have hmonth : (t.month + 1#8).toNat = t.month.toNat + 1 := by bv_omega
  have hyear : (t.year + 1#8).toNat = t.year.toNat + 1 := by bv_omega
  have hkept : ¬ 99#8 < t.year := by bv_omega
  unfold Clock.firstOfNextMonth
  split
  · next hlt =>
    have hno : ¬ 12#8 < t.month + 1#8 := by bv_omega
    simp [monthYear, rollDay, Clock.date, hno, hkept, hmonth]
  · next hlast =>
    have hcarry : 12#8 < t.month + 1#8 := by bv_omega
    split
    · next hlt =>
      have hno : ¬ 99#8 < t.year + 1#8 := by bv_omega
      simp [monthYear, rollDay, Clock.date, hcarry, hno, hyear]
    · next hge =>
      have hwrap : 99#8 < t.year + 1#8 := by bv_omega
      simp [monthYear, rollDay, Clock.date, hcarry, hwrap]

/-- The date guards leave the time of day. -/
theorem dateGuards_time (t : Clock) : (dateGuards t).hour = t.hour ∧
    (dateGuards t).minute = t.minute ∧ (dateGuards t).second = t.second := by
  rw [dateGuards_eq]
  split <;> exact ⟨rfl, rfl, rfl⟩

/-- The last two carries leave the time of day. -/
theorem monthYear_time (t : Clock) : (monthYear t).hour = t.hour ∧ (monthYear t).minute = t.minute ∧
    (monthYear t).second = t.second := by
  unfold monthYear
  split <;> simp only <;> split <;> exact ⟨rfl, rfl, rfl⟩

theorem timeAdvance_eq (t : Clock) : timeAdvance t = monthYear (dateGuards t.carried) := rfl

/-- TimeAdvance moves the second of the day on by one, modulo a day (42_rtc.md R181). -/
theorem timeAdvance_time {t : Clock} (h : t.TimeInRange) :
    (timeAdvance t).TimeInRange ∧
      (timeAdvance t).secondOfDay = (t.secondOfDay + 1) % 86400 := by
  obtain ⟨hh, hm, hs⟩ := dateGuards_time t.carried
  obtain ⟨hh', hm', hs'⟩ := monthYear_time (dateGuards t.carried)
  have hcarried := Clock.carried_time h
  rw [Clock.TimeInRange, Clock.secondOfDay] at hcarried ⊢
  rwa [timeAdvance_eq, hh', hm', hs', hh, hm, hs]

theorem Clock.carried_day_toNat {t : Clock} (ht : t.TimeInRange) (hd : t.day.toNat ≤ 31) :
    t.carried.day.toNat = t.guardDay := by
  obtain ⟨hday, -, -⟩ := Clock.carried_date ht
  rw [hday, Clock.guardDay]
  split
  · bv_omega
  · rfl

/-- What TimeAdvance makes of any date in range (42_rtc.md R182, R184). -/
theorem timeAdvance_date {t : Clock} (ht : t.TimeInRange) (hd : t.day.toNat ≤ 31)
    (hm : t.month.toNat ≤ 12) (hy : t.year.toNat ≤ 99) : (timeAdvance t).date = t.guardedDate := by
  obtain ⟨-, hmonth, hyear⟩ := Clock.carried_date ht
  have hfirst : t.carried.firstOfNextMonth = t.firstOfNextMonth := by
    simp only [Clock.firstOfNextMonth, hmonth, hyear]
  simp only [timeAdvance_eq, dateGuards_eq, Clock.rolls_iff (hyear ▸ hy), hmonth, hyear,
    Clock.carried_day_toNat ht hd, Clock.guardedDate]
  split
  · rw [monthYear_rollDay_date (hmonth ▸ hm) (hyear ▸ hy), hfirst]
  · rw [monthYear_of_le (hmonth ▸ hm) (hyear ▸ hy), Clock.date, hmonth, hyear,
      Clock.carried_day_toNat ht hd]

/-- TimeAdvance follows the calendar from a valid date (42_rtc.md R189). -/
theorem timeAdvance_date_of_valid {t : Clock} (ht : t.TimeInRange) (hv : t.ValidDate) :
    (timeAdvance t).date = if t.secondOfDay = 86399 then t.nextDate else t.date := by
  obtain ⟨⟨-, hd, -, hm, hy⟩, hle⟩ := hv
  rw [timeAdvance_date ht hd hm hy, Clock.guardedDate, Clock.guardDay]
  split
  · by_cases hlt : t.day.toNat < monthLength t.month t.year
    · rw [if_neg (not_rollsAt_of_le hlt), Clock.nextDate, if_pos hlt]
    · have hend : t.day.toNat = monthLength t.month t.year := by omega
      rw [hend, if_pos (rollsAt_monthLength_succ _ _), Clock.nextDate, if_neg hlt]
      rfl
  · rw [if_neg (not_rollsAt_of_le hle)]
    rfl

theorem Clock.date_eq_iff {t u : Clock} :
    t.date = u.date ↔ t.day = u.day ∧ t.month = u.month ∧ t.year = u.year := by
  simp only [Clock.date, Prod.mk.injEq, BitVec.toNat_inj]

theorem Clock.date_eq_mk_iff {t : Clock} {day month year : Nat} :
    t.date = (day, month, year) ↔
      t.day.toNat = day ∧ t.month.toNat = month ∧ t.year.toNat = year := by
  simp only [Clock.date, Prod.mk.injEq]

theorem Clock.validDate_of_date_eq {t u : Clock} (h : t.date = u.date) (hu : u.ValidDate) :
    t.ValidDate := by
  obtain ⟨hd, hm, hy⟩ := Clock.date_eq_iff.mp h
  rwa [Clock.ValidDate, Clock.DateInRange, hd, hm, hy]

theorem Clock.nextDate_of_date_eq {t u : Clock} (h : t.date = u.date) : t.nextDate = u.nextDate := by
  obtain ⟨hd, hm, hy⟩ := Clock.date_eq_iff.mp h
  simp only [Clock.nextDate, hd, hm, hy]

theorem one_le_monthLength (month year : Byte) : 1 ≤ monthLength month year := by
  unfold monthLength
  split <;> split <;> decide

theorem monthLength_le (month year : Byte) : monthLength month year ≤ 31 := by
  unfold monthLength
  split <;> split <;> decide

theorem Clock.validDate_of_day_one {t : Clock} (hd : t.day.toNat = 1) (hm1 : 1 ≤ t.month.toNat)
    (hm2 : t.month.toNat ≤ 12) (hy : t.year.toNat ≤ 99) : t.ValidDate :=
  ⟨⟨hd.ge, by omega, hm1, hm2, hy⟩, hd.trans_le (one_le_monthLength _ _)⟩

/-- The date of the day after a valid date is valid. -/
theorem Clock.validDate_of_date_eq_nextDate {t u : Clock} (h : t.date = u.nextDate)
    (hu : u.ValidDate) : t.ValidDate := by
  obtain ⟨⟨hd1, hd2, hm1, hm2, hy⟩, hle⟩ := hu
  have hlength := monthLength_le u.month u.year
  rw [Clock.nextDate] at h
  split at h
  · next hlt =>
    obtain ⟨hday, hmonth, hyear⟩ := Clock.date_eq_mk_iff.mp h
    rw [BitVec.toNat_inj] at hmonth hyear
    rw [Clock.ValidDate, Clock.DateInRange, hday, hmonth, hyear]
    omega
  · split at h
    · next hlt =>
      obtain ⟨hday, hmonth, hyear⟩ := Clock.date_eq_mk_iff.mp h
      exact Clock.validDate_of_day_one hday (by omega) (by omega) (by omega)
    · next hlast =>
      obtain ⟨hday, hmonth, hyear⟩ := Clock.date_eq_mk_iff.mp h
      have hle99 : t.year.toNat ≤ 99 := by split at hyear <;> omega
      exact Clock.validDate_of_day_one hday (by omega) (by omega) hle99

/-- From a valid date TimeAdvance leads to a valid date (42_rtc.md R189). -/
theorem timeAdvance_validDate {t : Clock} (ht : t.TimeInRange) (hv : t.ValidDate) :
    (timeAdvance t).ValidDate := by
  have hdate := timeAdvance_date_of_valid ht hv
  split at hdate
  · exact Clock.validDate_of_date_eq_nextDate hdate hv
  · exact Clock.validDate_of_date_eq hdate hv

end Sys2Proof.Machine
end

section
/-! PROOFS. NvWriteThrough as a list of writes (42_rtc.md R185), and STICK as one update of the state
(42_rtc.md R180). -/

namespace Sys2Proof.Machine

/-- The storage after the writes `ws`, each (address, byte before, byte after), one after the other
(20_memory.md R72). -/
def Memory.writeAll (c : Config) (ws : List (Byte × Byte × Byte)) (m : Memory) : Memory :=
  ws.foldl (fun m w => Memory.write c m w.1.toNat w.2.2) m

section
variable {c : Config} {ws : List (Byte × Byte × Byte)} {m : Memory}

theorem Memory.wf_writeAll (h : Memory.wf c m = true) : Memory.wf c (Memory.writeAll c ws m) = true := by
  induction ws generalizing m with
  | nil => exact h
  | cons w ws ih => exact ih (Memory.wf_write h w.1 w.2.2)

theorem Memory.read_writeAll_of_ne (h : Memory.wf c m = true) {a : Nat}
    (ha : ∀ w ∈ ws, w.1.toNat ≠ a) :
    Memory.read c (Memory.writeAll c ws m) a = Memory.read c m a := by
  induction ws generalizing m with
  | nil => rfl
  | cons w ws ih =>
    obtain ⟨hw, hws⟩ := List.forall_mem_cons.mp ha
    exact (ih (Memory.wf_write h w.1 w.2.2) hws).trans (Memory.read_write_other h hw.symm w.2.2)

/-- Where no address is written twice, every write is read back. -/
theorem Memory.read_writeAll_of_mem (h : Memory.wf c m = true) (hnodup : (ws.map (·.1)).Nodup)
    {w : Byte × Byte × Byte} (hw : w ∈ ws) :
    Memory.read c (Memory.writeAll c ws m) w.1.toNat = w.2.2 := by
  induction ws generalizing m with
  | nil => cases hw
  | cons x ws ih =>
    obtain ⟨hx, hws⟩ := List.nodup_cons.mp hnodup
    have hstored := Memory.wf_write h x.1 x.2.2
    rcases List.mem_cons.mp hw with rfl | hmem
    · have hlater : ∀ y ∈ ws, y.1.toNat ≠ w.1.toNat := fun y hy heq =>
        hx (List.mem_map.mpr ⟨y, hy, BitVec.eq_of_toNat_eq heq⟩)
      exact (Memory.read_writeAll_of_ne hstored hlater).trans (Memory.read_write_same h _ _)
    · exact ih hstored hws hmem

end

/-- Writes to durable storage in a row change storage, and list themselves in their order. -/
theorem foldl_nvWrite_eq (c : Config) (ws : List (Byte × Byte × Byte)) (s : State) :
    ws.foldl (fun u w => nvWrite c w.1 w.2.2 u) s =
      { s with
        nv := Memory.writeAll c ws s.nv
        outs := s.outs ++ ws.map fun w => OutEvent.nvw w.1 w.2.2 } := by
  induction ws generalizing s with
  | nil => simp [Memory.writeAll]
  | cons w ws ih =>
    rw [List.foldl_cons, ih]
    simp [nvWrite, emit, Memory.writeAll]

/-- Fields written where they changed are the writes of those that changed. -/
theorem foldl_nvWriteChanged_eq (c : Config) (fs : List (Byte × Byte × Byte)) (s : State) :
    fs.foldl (fun u f => nvWriteChanged c f.1 f.2.1 f.2.2 u) s =
      (fs.filter fun f => f.2.2 != f.2.1).foldl (fun u w => nvWrite c w.1 w.2.2 u) s := by
  simp only [List.foldl_filter, nvWriteChanged, bne_iff_ne, ne_eq, ite_not]

/-- The homes of the six fields of the time and the date, each with the field's bytes before and after,
in the order of NvWriteThrough (42_rtc.md R185). -/
def clockFields (old new : Clock) : List (Byte × Byte × Byte) :=
  [(0x02#8, old.second, new.second), (0x01#8, old.minute, new.minute), (0x00#8, old.hour, new.hour),
    (0x05#8, old.day, new.day), (0x06#8, old.month, new.month), (0x07#8, old.year, new.year)]

/-- The writes of a tick that takes the clock from `old` to `new` (42_rtc.md R185). -/
def clockWrites (old new : Clock) : List (Byte × Byte × Byte) :=
  if new.hour ≠ old.hour ∨ new.day ≠ old.day ∨ new.month ≠ old.month ∨ new.year ≠ old.year then
    (clockFields old new).filter fun f => f.2.2 != f.2.1
  else []

theorem clockWrites_addr_nodup (old new : Clock) : ((clockWrites old new).map (·.1)).Nodup := by
  have hfields : ((clockFields old new).map (·.1)).Nodup := by
    simp only [clockFields, List.map_cons, List.map_nil]
    decide
  unfold clockWrites
  split
  · exact hfields.sublist (List.filter_sublist.map _)
  · exact List.nodup_nil

/-- NvWriteThrough: the writes of the tick, in storage and in the output list (42_rtc.md R185). -/
theorem nvWriteThrough_eq (c : Config) (old : Clock) (s : State) :
    nvWriteThrough c old s =
      { s with
        nv := Memory.writeAll c (clockWrites old s.clock) s.nv
        outs := s.outs ++ (clockWrites old s.clock).map fun w => OutEvent.nvw w.1 w.2.2 } := by
  rw [← foldl_nvWrite_eq]
  unfold nvWriteThrough clockWrites
  by_cases hsame : s.clock.hour = old.hour ∧ s.clock.day = old.day ∧ s.clock.month = old.month ∧
      s.clock.year = old.year
  · obtain ⟨hh, hd, hm, hy⟩ := hsame
    simp [hh, hd, hm, hy]
  · rw [if_neg hsame, if_pos (by simpa only [not_and_or] using hsame), ← foldl_nvWriteChanged_eq]
    rfl

/-- The alarm as AlarmCheck leaves it at the time `t` (43_alarm.md R220). -/
def Alarm.checked (x : Alarm) (t : Clock) : Alarm :=
  if x.Triggers t then { x with ringing := true, snooze := 0#16 } else x

/-- The alarm as SnoozeStep leaves it (43_alarm.md R221). -/
def Alarm.countedDown (x : Alarm) : Alarm :=
  { x with snooze := if x.snooze = 0#16 then 0#16 else x.snooze - 1#16 }

/-- DISPBUF as Render leaves it, the clock being `t` (42_rtc.md R186, R187). -/
def renderedBuf (c : Config) (t : Clock) (s : State) : List Byte :=
  if s.mode = .showTime then
    (c.renderTime t.hour t.minute t.second s.region (unkPhase s.timeUnknown t.second)).modifyHead
      fun v => putBit v c.indAlarmBit s.alarm.alarmEn
  else s.dispBuf

/-- DISPBUF as SnoozeStep leaves it, the countdown standing at `snooze` before it (43_alarm.md R221). -/
def blinkedBuf (c : Config) (snooze : Half) (buf : List Byte) : List Byte :=
  if snooze = 0#16 then buf
  else buf.modifyHead fun v => putBit v c.indAlarmBit (snoozeBlink (snooze - 1#16))

theorem alarmCheck_eq_checked (s : State) :
    alarmCheck s = { s with alarm := s.alarm.checked s.clock } := alarmCheck_eq s

theorem render_eq_renderedBuf (c : Config) (s : State) :
    render c s = { s with dispBuf := renderedBuf c s.clock s } := render_eq c s

theorem snoozeStep_eq_blinkedBuf (c : Config) (s : State) :
    snoozeStep c s =
      { s with
        alarm := s.alarm.countedDown
        dispBuf := blinkedBuf c s.alarm.snooze s.dispBuf } := snoozeStep_eq c s

/-- STICK: everything it changes (42_rtc.md R180). The proof keeps the advanced clock as a variable, so
that the two states are compared without evaluating it. -/
theorem opStick_eq (c : Config) (s : State) :
    opStick c s =
      { s with
        clock := timeAdvance s.clock
        alarm := (s.alarm.checked (timeAdvance s.clock)).countedDown
        dimmer := { s.dimmer with adcPending := s.dimmer.adcPending || s.dimmer.dimmerEn }
        dispBuf := blinkedBuf c (s.alarm.checked (timeAdvance s.clock)).snooze
          (renderedBuf c (timeAdvance s.clock) s)
        inact := if s.inact = 0#8 then 0#8 else s.inact - 1#8
        nv := Memory.writeAll c (clockWrites s.clock (timeAdvance s.clock)) s.nv
        outs := ((clockWrites s.clock (timeAdvance s.clock)).map fun w => OutEvent.nvw w.1 w.2.2) ++
          if s.dimmer.dimmerEn then [.adcStart] else [] } := by
  simp only [opStick, startOp, nvWriteThrough_eq, render_eq_renderedBuf, alarmCheck_eq_checked,
    snoozeStep_eq_blinkedBuf, inactStep_eq, dimRequest_eq, List.nil_append]
  generalize timeAdvance s.clock = t
  rfl

@[simp] theorem opStick_clock (c : Config) (s : State) :
    (opStick c s).clock = timeAdvance s.clock := by
  rw [opStick_eq]

/-- Bit by bit, what setting the indicator does to a buffer that has a first byte (42_rtc.md R187,
43_alarm.md R221). -/
theorem modifyHead_putBit_getLsbD {buf : List Byte} (hbuf : buf ≠ []) (k : Fin 8) (f : Bool) (i : Nat)
    {j : Nat} (hj : j < 8) :
    ((buf.modifyHead fun v => putBit v k f).getD i 0#8).getLsbD j =
      if i = 0 ∧ j = k.val then f else (buf.getD i 0#8).getLsbD j := by
  cases buf with
  | nil => exact absurd rfl hbuf
  | cons v buf =>
    cases i with
    | zero => simpa using putBit_getLsbD v k f j hj
    | succ i => simp

theorem Alarm.checked_snooze (x : Alarm) (t : Clock) :
    (x.checked t).snooze = if x.Triggers t then 0#16 else x.snooze := by
  unfold Alarm.checked
  split <;> rfl

theorem renderedBuf_length {c : Config} (hc : c.Valid) (t : Clock) {s : State}
    (h : s.dispBuf.length = c.nDigits) : (renderedBuf c t s).length = c.nDigits := by
  unfold renderedBuf
  split
  · rw [List.length_modifyHead, hc.renderTime_length]
  · exact h

theorem blinkedBuf_length (c : Config) (snooze : Half) (buf : List Byte) :
    (blinkedBuf c snooze buf).length = buf.length := by
  unfold blinkedBuf
  split
  · rfl
  · exact List.length_modifyHead ..

theorem blinkedBuf_getLsbD {c : Config} {buf : List Byte} (hbuf : buf ≠ []) (snooze : Half) (i : Nat)
    {j : Nat} (hj : j < 8) :
    ((blinkedBuf c snooze buf).getD i 0#8).getLsbD j =
      if i = 0 ∧ j = c.indAlarmBit.val ∧ snooze ≠ 0#16 then (snooze.toNat - 1) % 2 == 1
      else (buf.getD i 0#8).getLsbD j := by
  unfold blinkedBuf
  split
  · next h => simp [h]
  · next h =>
    have hless : (snooze - 1#16).toNat = snooze.toNat - 1 := by bv_omega
    simp only [modifyHead_putBit_getLsbD hbuf _ _ _ hj, ne_eq, h, not_false_eq_true, and_true,
      snoozeBlink, hless]

end Sys2Proof.Machine
end

section
/-! PROOFS. STICK, statement by statement: the time of day and the calendar, the writes to durable
storage, the display buffer, the countdown of inactivity and the frame (42_rtc.md R180-R190). -/

namespace Sys2Proof.Machine

/-- Settles O37: the clock after STICK is TimeAdvance of the clock before. -/
theorem stickAdvancesTheTimeOfDay : Obligations.StickAdvancesTheTimeOfDay := by
  intro s ht
  refine ⟨opStick Config.hw s, rfl, ?_⟩
  rw [opStick_clock]
  exact timeAdvance_time ht

/-- Settles O38: on a valid date a guard fires only where the carry has left the month. -/
theorem stickFollowsTheCalendar : Obligations.StickFollowsTheCalendar := by
  intro s ht hv
  refine ⟨opStick Config.hw s, rfl, ?_⟩
  rw [opStick_clock]
  exact ⟨timeAdvance_validDate ht hv, timeAdvance_date_of_valid ht hv⟩

theorem exec_stick_date {s : State} (ht : s.clock.TimeInRange) (hy : s.clock.year.toNat ≤ 99)
    (hd : s.clock.day.toNat ≤ 31) (hm : s.clock.month.toNat ≤ 12) {date : Nat × Nat × Nat}
    (hdate : s.clock.guardedDate = date) : ∃ t, exec .stick s = .next t ∧ t.clock.date = date :=
  ⟨opStick Config.hw s, rfl, by rw [opStick_clock, timeAdvance_date ht hd hm hy, hdate]⟩

/-- Settles O39: the day that the guards see is that of the date or, at 23:59:59, the one after it, and
what they make of each invalid date is read off their conditions. -/
theorem stickRepairsAnInvalidDate : Obligations.StickRepairsAnInvalidDate := by
  intro s ht hy
  refine ⟨fun hm hd => ?_, fun hm hd hleap => ?_, fun hm hd => ?_, fun hm hd => ?_⟩
  · have hlt : s.clock.month.toNat < 12 := by
      simp only [List.mem_cons, List.not_mem_nil, or_false] at hm
      omega
    refine exec_stick_date ht hy (by omega) hlt.le ?_
    rw [Clock.guardedDate, Clock.guardDay, Clock.firstOfNextMonth, if_pos hlt, hd]
    split
    · exact if_pos (.inl (by decide))
    · exact if_pos (.inr (.inl ⟨rfl, hm⟩))
  · refine exec_stick_date ht hy (by omega) (by omega) ?_
    rw [Clock.guardedDate, Clock.guardDay, Clock.firstOfNextMonth, hm, hd]
    split <;> simp [RollsAt, hleap]
  · refine exec_stick_date ht hy (by omega) (by omega) ?_
    rw [Clock.guardedDate, Clock.guardDay, Clock.firstOfNextMonth, hm, hd]
    split <;> simp [RollsAt]
  · refine exec_stick_date ht hy (by omega) (by omega) ?_
    rw [Clock.guardedDate, Clock.guardDay, Clock.firstOfNextMonth, hm, hd]
    split <;> simp [RollsAt]

/-- Settles O40: the storage after the tick's writes, none of them to an address written before. -/
theorem stickWritesChangedFieldsThrough : Obligations.StickWritesChangedFieldsThrough := by
  intro s hwf
  refine ⟨opStick Config.hw s, rfl, ?_⟩
  rw [opStick_eq]
  have hnodup := clockWrites_addr_nodup s.clock (timeAdvance s.clock)
  generalize timeAdvance s.clock = t at hnodup ⊢
  exact ⟨Memory.wf_writeAll hwf, rfl, fun f hf => Memory.read_writeAll_of_mem hwf hnodup hf,
    fun a ha => Memory.read_writeAll_of_ne hwf ha⟩

/-- The bits of DISPBUF after STICK, over what Render leaves. -/
theorem opStick_dispBuf_getLsbD {c : Config} {s : State}
    (hbuf : renderedBuf c (timeAdvance s.clock) s ≠ []) (i : Nat) {j : Nat} (hj : j < 8) :
    ((opStick c s).dispBuf.getD i 0#8).getLsbD j =
      if i = 0 ∧ j = c.indAlarmBit.val ∧ s.alarm.snooze ≠ 0#16 ∧
          ¬ s.alarm.Triggers (timeAdvance s.clock) then
        (s.alarm.snooze.toNat - 1) % 2 == 1
      else ((renderedBuf c (timeAdvance s.clock) s).getD i 0#8).getLsbD j := by
  rw [opStick_eq]
  simp only [blinkedBuf_getLsbD hbuf _ _ hj, Alarm.checked_snooze]
  by_cases htriggers : s.alarm.Triggers (timeAdvance s.clock)
  · simp [htriggers]
  · simp [htriggers]

/-- Settles O41: Render sets every bit in ShowTime, and SnoozeStep the indicator after it. -/
theorem stickRendersAndBlinks : Obligations.StickRendersAndBlinks := by
  intro s hlen
  have hc := Config.hw_valid
  have hlength := renderedBuf_length hc (timeAdvance s.clock) hlen
  have hbuf : renderedBuf Config.hw (timeAdvance s.clock) s ≠ [] :=
    List.ne_nil_of_length_pos (hlength ▸ hc.nDigits_pos)
  refine ⟨opStick Config.hw s, rfl, ?_⟩
  rw [opStick_clock]
  have hbits := fun i {j} hj => opStick_dispBuf_getLsbD hbuf i (j := j) hj
  refine ⟨?_, fun hmode i j hj => ?_, fun hmode i j hj => ?_⟩
  · rw [opStick_eq]
    exact (blinkedBuf_length ..).trans hlength
  · have hrender : Config.hw.renderTime (timeAdvance s.clock).hour (timeAdvance s.clock).minute
        (timeAdvance s.clock).second s.region
        (unkPhase s.timeUnknown (timeAdvance s.clock).second) ≠ [] :=
      List.ne_nil_of_length_pos ((hc.renderTime_length ..).symm ▸ hc.nDigits_pos)
    rw [hbits i hj, renderedBuf, if_pos hmode, modifyHead_putBit_getLsbD hrender _ _ _ hj]
    by_cases hind : i = 0 ∧ j = Config.hw.indAlarmBit.val
    · obtain ⟨hi, hj⟩ := hind
      simp only [hi, hj, true_and, and_self, if_true]
    · rw [if_neg hind, if_neg hind, if_neg fun h => hind ⟨h.1, h.2.1⟩]
      rfl
  · rw [hbits i hj, renderedBuf, if_neg hmode]

/-- Settles O43: InactStep and DimRequest, the other outputs being writes to storage. -/
theorem stickCountsInactivityAndRequests : Obligations.StickCountsInactivityAndRequests := by
  intro s
  refine ⟨opStick Config.hw s, rfl, ?_⟩
  rw [opStick_eq]
  refine ⟨?_, rfl, ?_⟩
  · simp only
    split
    · next hzero => simp [hzero]
    · bv_omega
  · cases s.dimmer.dimmerEn <;> simp

/-- Settles O44: the fields that the one update of STICK does not name. -/
theorem stickLeavesButtonsAndMultiplexer : Obligations.StickLeavesButtonsAndMultiplexer := by
  intro s
  refine ⟨opStick Config.hw s, rfl, ?_⟩
  rw [opStick_eq]
  refine ⟨rfl, rfl, rfl, rfl, rfl, rfl, rfl, fun e he => ?_⟩
  rcases List.mem_append.mp he with hwrite | hstart
  · obtain ⟨w, -, rfl⟩ := List.mem_map.mp hwrite
    exact .inr ⟨w.1, w.2.2, rfl⟩
  · split at hstart
    · exact .inl (List.mem_singleton.mp hstart)
    · cases hstart

/-- The clock `t` stands at the second `n`, counted from the midnight at which the day of `t₀` began, over
that day and the next (42_rtc.md R189, R190). -/
structure Clock.StandsAt (t₀ : Clock) (n : Nat) (t : Clock) : Prop where
  time : t.TimeInRange
  valid : t.ValidDate
  second_eq : t.secondOfDay = n % 86400
  date_eq : n < 2 * 86400 → t.date = if n < 86400 then t₀.date else t₀.nextDate

theorem Clock.secondOfDay_lt {t : Clock} (h : t.TimeInRange) : t.secondOfDay < 86400 := by
  obtain ⟨hh, hm, hs⟩ := h
  rw [Clock.secondOfDay]
  omega

theorem Clock.standsAt_self {t : Clock} (ht : t.TimeInRange) (hv : t.ValidDate) :
    Clock.StandsAt t t.secondOfDay t where
  time := ht
  valid := hv
  second_eq := (Nat.mod_eq_of_lt (Clock.secondOfDay_lt ht)).symm
  date_eq _ := (if_pos (Clock.secondOfDay_lt ht)).symm

/-- The date changes on the last second of the first day only. -/
theorem Clock.StandsAt.after_timeAdvance {t₀ t : Clock} {n : Nat} (h : Clock.StandsAt t₀ n t) :
    Clock.StandsAt t₀ (n + 1) (timeAdvance t) where
  time := (timeAdvance_time h.time).1
  valid := timeAdvance_validDate h.time h.valid
  second_eq := by rw [(timeAdvance_time h.time).2, h.second_eq, Nat.mod_add_mod]
  date_eq hn := by
    have hdate := h.date_eq (by omega)
    rw [timeAdvance_date_of_valid h.time h.valid, h.second_eq]
    by_cases hlast : n = 86399
    · subst hlast
      exact Clock.nextDate_of_date_eq hdate
    · rw [if_neg (by omega), hdate]
      exact if_congr (by omega) rfl rfl

/-- Settles O45: each STICK moves the second on by one, and 86400 of them lead to the same second of the
day after. -/
theorem aDayOfSticksIsOneDay : Obligations.ADayOfSticksIsOneDay := by
  intro s ht hv
  have hstep : ∀ {n u}, Clock.StandsAt s.clock n u.clock →
      ∃ t, exec .stick u = .next t ∧ Clock.StandsAt s.clock (n + 1) t.clock := fun {_ u} h =>
    ⟨opStick Config.hw u, rfl, by rw [opStick_clock]; exact h.after_timeAdvance⟩
  obtain ⟨t, htimes, hday⟩ := execTimes_induction (P := fun n u => Clock.StandsAt s.clock n u.clock)
    hstep 86400 (Clock.standsAt_self ht hv)
  have hlt := Clock.secondOfDay_lt ht
  refine ⟨t, htimes, hday.time, hday.valid, ?_, ?_⟩
  · rw [hday.second_eq, Nat.add_mod_right, Nat.mod_eq_of_lt hlt]
  · rw [hday.date_eq (by omega), if_neg (by omega)]

end Sys2Proof.Machine
end

section
/-! PROOFS. The alarm sequencer, operation by operation: its part of STICK, its part of FTICK with the
snooze trigger, and ALMSW (43_alarm.md R220, R221, R224, R227, R231). -/

namespace Sys2Proof.Machine

theorem Alarm.checked_of_triggers {x : Alarm} {t : Clock} (h : x.Triggers t) :
    x.checked t = { x with ringing := true, snooze := 0#16 } := if_pos h

theorem Alarm.checked_of_not_triggers {x : Alarm} {t : Clock} (h : ¬ x.Triggers t) :
    x.checked t = x := if_neg h

/-- An expired countdown stays at 0 (43_alarm.md R222). -/
theorem Alarm.countedDown_of_expired {x : Alarm} (h : x.snooze = 0#16) : x.countedDown = x := by
  rw [Alarm.countedDown, if_pos h, ← h]

theorem Alarm.countedDown_of_running {x : Alarm} (h : x.snooze ≠ 0#16) :
    x.countedDown = { x with snooze := x.snooze - 1#16 } := by
  rw [Alarm.countedDown, if_neg h]

/-- The alarm's part of STICK: AlarmCheck on the updated time, then SnoozeStep (42_rtc.md R180). -/
theorem opStick_alarm (c : Config) (s : State) :
    (opStick c s).alarm = (s.alarm.checked (timeAdvance s.clock)).countedDown := by
  rw [opStick_eq]

/-- Settles O42: a trigger leaves SnoozeStep nothing to count, and without one SnoozeStep sees the
countdown as it was. -/
theorem stickTriggersOrCountsDown : Obligations.StickTriggersOrCountsDown := by
  intro s
  refine ⟨opStick Config.hw s, rfl, ?_⟩
  rw [opStick_alarm, opStick_clock]
  refine ⟨fun htriggers => ?_, fun hquiet hrunning => ?_, fun hquiet hexpired => ?_⟩
  · rw [Alarm.checked_of_triggers htriggers, Alarm.countedDown_of_expired rfl]
  · rw [Alarm.checked_of_not_triggers hquiet, Alarm.countedDown_of_running hrunning]
  · rw [Alarm.checked_of_not_triggers hquiet, Alarm.countedDown_of_expired hexpired]

/-- The alarm as AlmStep leaves it, the buzzer following the pulse (43_alarm.md R224). -/
def Alarm.ticked (x : Alarm) : Alarm :=
  { x with
    almDiv :=
      if x.ringing = true ∧ x.snooze = 0#16 then
        (if x.almDiv.toNat = almDivider - 1 then 0#8 else x.almDiv + 1#8)
      else x.almDiv
    pulsePhase := if x.Flips then !x.pulsePhase else x.pulsePhase
    buzzerOn := if x.Flips then !x.pulsePhase else x.pulsePhase }

/-- The alarm as a snooze trigger leaves it (43_alarm.md R227). -/
def Alarm.snoozed (c : Config) (x : Alarm) : Alarm :=
  { x with snooze := BitVec.ofNat 16 c.snoozeSecs, pulsePhase := false, buzzerOn := false }

theorem almStep_alarm_eq_ticked (c : Config) {s : State} (h : s.alarm.buzzerOn = s.alarm.pulsePhase) :
    (almStep c s).alarm = s.alarm.ticked := by
  rw [almStep_eq, Alarm.ticked, h]

/-- The snooze trigger of a press confirmed on the tick (41_buttons.md R156). -/
theorem btnStep_alarm_eq_snoozed (c : Config) (id : ButtonId) {s : State}
    (h : s.alarm.buzzerOn = s.alarm.pulsePhase) :
    (btnStep c id s).alarm =
      if s.alarm.ringing = true ∧ (s.buttons.get id).confirms c = true then s.alarm.snoozed c
      else s.alarm := by
  rw [btnStep_alarm, h, Bool.and_not_self, Alarm.snoozed]

/-- BtnStep keeps the buzzer following the pulse (10_state.md R67 (a)). -/
theorem btnStep_buzzerOn_eq_pulsePhase (c : Config) (id : ButtonId) {s : State}
    (h : s.alarm.buzzerOn = s.alarm.pulsePhase) :
    (btnStep c id s).alarm.buzzerOn = (btnStep c id s).alarm.pulsePhase := by
  rw [btnStep_alarm_eq_snoozed c id h]
  split
  · rfl
  · exact h

/-- A second snooze trigger on the same tick adds nothing. -/
theorem Alarm.snoozed_snoozed (c : Config) (x : Alarm) : (x.snoozed c).snoozed c = x.snoozed c := rfl

/-- The button steps snooze a ringing alarm where a press is confirmed (41_buttons.md R156). -/
theorem btnSteps_alarm_mode (c : Config) {ids : List ButtonId} (hnodup : ids.Nodup) {s : State}
    (h : s.alarm.buzzerOn = s.alarm.pulsePhase) :
    ((btnSteps c ids s).alarm, (btnSteps c ids s).mode) =
      if s.alarm.ringing = true ∧ (ids.filter fun id => (s.buttons.get id).confirms c) ≠ [] then
        (s.alarm.snoozed c, .showSnooze)
      else (s.alarm, s.mode) := by
  induction ids generalizing s with
  | nil => exact (if_neg fun hsnoozes => hsnoozes.2 rfl).symm
  | cons id ids ih =>
    obtain ⟨hid, hrest⟩ := List.nodup_cons.mp hnodup
    have hlater : (ids.filter fun j => ((btnStep c id s).buttons.get j).confirms c) =
        ids.filter fun j => (s.buttons.get j).confirms c :=
      List.filter_congr fun j hj => by
        rw [btnStep_buttons_get_other (ne_of_mem_of_not_mem hj hid)]
    have htail := ih hrest (btnStep_buzzerOn_eq_pulsePhase c id h)
    rw [btnStep_ringing, hlater, btnStep_alarm_eq_snoozed c id h, btnStep_mode] at htail
    refine htail.trans ?_
    rw [List.filter_cons]
    by_cases hfirst : s.alarm.ringing = true ∧ (s.buttons.get id).confirms c = true
    · rw [if_pos hfirst, if_pos hfirst, Alarm.snoozed_snoozed, ite_self, if_pos hfirst.2,
        if_pos ⟨hfirst.1, List.cons_ne_nil _ _⟩]
    · rw [if_neg hfirst, if_neg hfirst]
      refine if_congr (and_congr_right fun hring => ?_) rfl rfl
      rw [if_neg fun hconfirms => hfirst ⟨hring, hconfirms⟩]

/-- The alarm's part of FTICK: AlmStep, then the snooze of a press confirmed on the tick (40_mux.md
R130). -/
theorem opFtick_alarm_mode (c : Config) {s : State} (h : s.alarm.buzzerOn = s.alarm.pulsePhase) :
    ((opFtick c s).alarm, (opFtick c s).mode) =
      if s.alarm.ringing = true ∧ s.buttons.confirmed c ≠ [] then
        (s.alarm.ticked.snoozed c, .showSnooze)
      else (s.alarm.ticked, s.mode) := by
  have hticked : (almStep c (muxStep c (startOp s))).alarm = s.alarm.ticked := by
    rw [almStep_alarm_eq_ticked c (by simpa using h), muxStep_alarm, startOp_alarm]
  have hbuzzer : s.alarm.ticked.buzzerOn = s.alarm.ticked.pulsePhase := rfl
  have hringing : s.alarm.ticked.ringing = s.alarm.ringing := rfl
  rw [opFtick_eq_btnSteps, btnSteps_alarm_mode c (by decide) (by rw [hticked, hbuzzer]), hticked,
    hringing, almStep_buttons, muxStep_buttons, startOp_buttons, almStep_mode, muxStep_mode,
    startOp_mode]
  rfl

/-- Settles O32: the two cases of `opFtick_alarm_mode`, the alarm after AlmStep written out. -/
theorem ftickPulsesOrSnoozes : Obligations.FtickPulsesOrSnoozes := by
  intro s hbuzzer
  have hpair := opFtick_alarm_mode Config.hw hbuzzer
  refine ⟨opFtick Config.hw s, rfl, fun hsnoozes => ?_, fun hkept => ?_⟩
  · rw [if_pos hsnoozes] at hpair
    obtain ⟨halarm, hmode⟩ := Prod.mk.inj hpair
    exact ⟨hmode, halarm⟩
  · rw [if_neg (by simpa only [not_and_or, Bool.not_eq_true, not_not] using hkept)] at hpair
    obtain ⟨halarm, hmode⟩ := Prod.mk.inj hpair
    refine ⟨hmode, halarm.trans ?_⟩
    simp only [Alarm.ticked, and_assoc]
    rfl

theorem opAlmsw_repeated (c : Config) (s : State) : opAlmsw c s.alarm.almswLvl s = startOp s :=
  if_pos rfl

/-- The switch turned on: the latch, and AlarmEnable (43_alarm.md R231, R233). -/
theorem opAlmsw_true_of_off {s : State} (h : s.alarm.almswLvl = false) (c : Config) :
    opAlmsw c true s =
      { s with alarm := { s.alarm with almswLvl := true, alarmEn := true }, outs := [] } := by
  rw [opAlmsw, if_neg (by simp [h])]
  rfl

/-- The switch turned off: the latch, and AlarmDisable (43_alarm.md R231, R232). -/
theorem opAlmsw_false_of_on {s : State} (h : s.alarm.almswLvl = true) (c : Config) :
    opAlmsw c false s =
      { s with
        alarm := { s.alarm with
          almswLvl := false
          alarmEn := false
          ringing := false
          snooze := 0#16
          pulsePhase := false
          buzzerOn := s.alarm.buzzerOn && !s.alarm.pulsePhase }
        outs := if s.alarm.pulsePhase then [.buzz false c.buzzPeriod] else [] } := by
  rw [opAlmsw, if_neg (by simp [h])]
  exact alarmDisable_eq c _

/-- Settles O25: a repeated level, a change to 1 and a change to 0. -/
theorem almswFollowsTheSwitch : Obligations.AlmswFollowsTheSwitch := fun s =>
  ⟨congrArg Host.Outcome.next (opAlmsw_repeated Config.hw s),
    fun hoff => congrArg Host.Outcome.next (opAlmsw_true_of_off hoff Config.hw),
    fun hon => congrArg Host.Outcome.next (opAlmsw_false_of_on hon Config.hw)⟩

end Sys2Proof.Machine
end

section
/-! PROOFS. When `ringing` begins and ends: what every operation makes of it, and the two ways in which
one can change it (43_alarm.md R220, R226, R229, R232). -/

namespace Sys2Proof.Machine

@[simp] theorem driveBright_alarm (level : Byte) (s : State) :
    (driveBright level s).alarm = s.alarm := by
  rw [driveBright_eq]

theorem opFtick_ringing (c : Config) (s : State) :
    (opFtick c s).alarm.ringing = s.alarm.ringing := by
  simp [opFtick]

theorem opStick_ringing (c : Config) (s : State) :
    (opStick c s).alarm.ringing =
      if s.alarm.Triggers (timeAdvance s.clock) then true else s.alarm.ringing := by
  rw [opStick_alarm, Alarm.countedDown, Alarm.checked]
  split <;> rfl

theorem opPin_alarm (id : ButtonId) (lvl : Bool) (s : State) : (opPin id lvl s).alarm = s.alarm := by
  simp [opPin_eq]

theorem opAdcdone_alarm (c : Config) (v : Byte) (s : State) :
    (opAdcdone c v s).alarm = s.alarm := by
  unfold opAdcdone dimApply
  split <;> simp

/-- The one register whose write reaches `ringing` is ALM_CTRL (45_host.md R276). -/
theorem writeReg_ringing {c : Config} {r : HostReg} (hr : r ≠ .almCtrl) (data : Byte) (s : State) :
    (writeReg c r data s).alarm.ringing = s.alarm.ringing := by
  cases r with
  | almCtrl => exact absurd rfl hr
  | dispMode => simp only [writeReg, writeDispMode]; split <;> rfl
  | bright => simp [writeReg, writeBright, storeThrough]
  | dimCtrl => simp only [writeReg, writeDimCtrl]; split <;> simp [storeThrough]
  | timeS | timeM | timeH | dateD | dateM | dateY | alarmM | alarmH | volume | region => rfl
  | btnJp | inact | status | dispBuf i => rfl
  | almStat | snoozeL | snoozeH | btnRaw | btnHeld | brightOut => rfl

/-- The operations that disable the alarm or reset it: RESET, the alarm switch turned off and a host
write of ALM_CTRL with bit 0 clear (43_alarm.md R226, R232). -/
inductive Silences (s : State) : Instr → Prop
  | reset : Silences s .reset
  | almsw (hon : s.alarm.almswLvl = true) : Silences s (.almsw false)
  | hwr (data : Byte) (hclear : data.getLsbD 0 = false) : Silences s (.hwr 0x08#8 data)

theorem opAlmsw_ringing_cases (c : Config) (lvl : Bool) (s : State) :
    (opAlmsw c lvl s).alarm.ringing = s.alarm.ringing ∨
      (opAlmsw c lvl s).alarm.ringing = false ∧ Silences s (.almsw lvl) := by
  by_cases hrepeated : lvl = s.alarm.almswLvl
  · rw [hrepeated, opAlmsw_repeated]
    exact .inl rfl
  · cases lvl with
    | true =>
      rw [opAlmsw_true_of_off (Bool.eq_false_iff.mpr (Ne.symm hrepeated))]
      exact .inl rfl
    | false =>
      have hon : s.alarm.almswLvl = true := Bool.eq_true_of_not_eq_false (Ne.symm hrepeated)
      rw [opAlmsw_false_of_on hon]
      exact .inr ⟨rfl, .almsw hon⟩

theorem opHwr_ringing_cases (c : Config) (addr data : Byte) (s : State) :
    (opHwr c addr data s).alarm.ringing = s.alarm.ringing ∨
      (opHwr c addr data s).alarm.ringing = false ∧ Silences s (.hwr addr data) := by
  unfold opHwr
  cases hreg : hostReg c addr with
  | none => exact .inl rfl
  | some r =>
    by_cases hr : r = .almCtrl
    · subst hr
      obtain rfl : addr = 0x08#8 := BitVec.eq_of_toNat_eq (addr_toNat_of_hostReg hreg)
      simp only [writeReg, writeAlmCtrl]
      split
      · exact .inl rfl
      · next hclear =>
        rw [alarmDisable_eq]
        exact .inr ⟨rfl, .hwr data (Bool.eq_false_iff.mpr hclear)⟩
    · exact .inl (writeReg_ringing hr data (startOp s))

/-- An operation leaves `ringing` as it is, sets it on the trigger of a STICK, or clears it in disabling
the alarm or resetting it. -/
theorem Executes.ringing_cases {i : Instr} {s t : State} (h : Executes s i t) :
    t.alarm.ringing = s.alarm.ringing ∨
      (t.alarm.ringing = true ∧ i = .stick ∧ s.alarm.Triggers t.clock) ∨
      (t.alarm.ringing = false ∧ Silences s i) := by
  cases h with
  | nop => exact .inl rfl
  | ftick => exact .inl (opFtick_ringing Config.hw s)
  | stick =>
    rw [opStick_ringing, opStick_clock]
    split
    · next htriggers => exact .inr (.inl ⟨rfl, rfl, htriggers⟩)
    · exact .inl rfl
  | pin id lvl => exact .inl (congrArg Alarm.ringing (opPin_alarm id lvl s))
  | adcdone v => exact .inl (congrArg Alarm.ringing (opAdcdone_alarm Config.hw v s))
  | almsw lvl => exact (opAlmsw_ringing_cases Config.hw lvl s).imp_right .inr
  | hwr addr data => exact (opHwr_ringing_cases Config.hw addr data s).imp_right .inr
  | hrd addr => exact .inl rfl
  | reset => exact .inr (.inr ⟨rfl, .reset⟩)

/-- Settles O48: of the three cases, the last one alone ends the ringing. -/
theorem ringingEndsOnlyByDisableOrReset : Obligations.RingingEndsOnlyByDisableOrReset := by
  intro i s t hexec hbefore hafter
  rcases (exec_eq_next_iff.mp hexec).ringing_cases with hkept | ⟨hset, -⟩ | ⟨-, hsilences⟩
  · rw [hkept, hbefore] at hafter
    cases hafter
  · rw [hset] at hafter
    cases hafter
  · cases hsilences with
    | reset => exact .inl rfl
    | almsw hon => exact .inr (.inl ⟨rfl, hon⟩)
    | hwr data hclear => exact .inr (.inr ⟨data, rfl, hclear⟩)

/-- Settles O49: of the three cases, the middle one alone begins the ringing. -/
theorem ringingBeginsOnlyAtTheAlarmTime : Obligations.RingingBeginsOnlyAtTheAlarmTime := by
  intro i s t hexec hbefore hafter
  rcases (exec_eq_next_iff.mp hexec).ringing_cases with hkept | ⟨-, htriggers⟩ | ⟨hcleared, -⟩
  · rw [hkept, hbefore] at hafter
    cases hafter
  · exact htriggers
  · rw [hcleared] at hafter
    cases hafter

end Sys2Proof.Machine
end

section
/-! PROOFS. What ADCDONE makes of the state: the sample is discarded, or it alone decides the level that is
driven (44_dimmer.md R251, R252). -/

namespace Sys2Proof.Machine

/-- A sample equal to the threshold counts as dark (44_dimmer.md R252). -/
theorem dimLevel_toNat {c : Config} (hc : c.Valid) (v bright : Byte) :
    (dimLevel c v bright).toNat =
      if v.toNat < c.dimThreshold.toNat then c.brightMin else bright.toNat := by
  have hmin := hc.brightMin_le
  have hmax := hc.brightMax_le
  rw [dimLevel, apply_ite BitVec.toNat, BitVec.toNat_ofNat, Nat.mod_eq_of_lt (by omega)]
  rfl

/-- With the guard of DimApply false, the flag is cleared and nothing else is done (44_dimmer.md R251,
R252). -/
theorem opAdcdone_of_discarded {s : State}
    (h : s.dimmer.dimmerEn = false ∨ s.mode = .setBrightness) (c : Config) (v : Byte) :
    opAdcdone c v s = { s with dimmer := { s.dimmer with adcPending := false }, outs := [] } := by
  have hguard : ¬(s.dimmer.dimmerEn = true ∧ s.mode ≠ .setBrightness) :=
    fun ⟨hen, hmode⟩ => h.elim (by simp [hen]) hmode
  exact if_neg hguard

/-- With the guard of DimApply true, the level that the sample asks for is driven, and reported where it
is new (44_dimmer.md R252). -/
theorem opAdcdone_of_applied {s : State} (hen : s.dimmer.dimmerEn = true)
    (hmode : s.mode ≠ .setBrightness) (c : Config) (v : Byte) :
    opAdcdone c v s =
      { s with
        dimmer := { s.dimmer with
          adcPending := false
          brightOut := dimLevel c v s.dimmer.bright }
        outs := if s.dimmer.brightOut = dimLevel c v s.dimmer.bright then []
          else [.bright (dimLevel c v s.dimmer.bright)] } :=
  (if_pos ⟨hen, hmode⟩).trans (driveBright_eq _ _)

/-- Settles O26: the guard is false or true, and where it is true the new level is `dimLevel`. -/
theorem adcdoneAppliesTheSample : Obligations.AdcdoneAppliesTheSample := fun s v =>
  ⟨fun hdiscard => congrArg Host.Outcome.next (opAdcdone_of_discarded hdiscard Config.hw v),
    fun hen hmode => ⟨dimLevel Config.hw v s.dimmer.bright, dimLevel_toNat Config.hw_valid v _,
      congrArg Host.Outcome.next (opAdcdone_of_applied hen hmode Config.hw v)⟩⟩

end Sys2Proof.Machine
end

section
/-! PROOFS. The host port's register map and what a read or a write of one register makes of the state
(10_state.md R40-R64, 45_host.md R270-R286). -/

namespace Sys2Proof.Machine

/-- The register is part of HOST space: every named one is, and of DISPBUF the `N_DIGITS` positions
(10_state.md R40-R63). -/
def HostReg.Mapped (c : Config) : HostReg → Prop
  | .dispBuf i => i < c.nDigits
  | _ => True

theorem mapped_of_hostReg {c : Config} {addr : Byte} {r : HostReg} (h : hostReg c addr = some r) :
    r.Mapped c := by
  unfold hostReg at h
  split at h
  case h_24 =>
    split at h
    · next hrange =>
      cases h
      exact Nat.sub_lt_left_of_lt_add hrange.1 hrange.2
    · cases h
  all_goals
    cases h
    trivial

/-- The registers of HOST space, each at its own address (10_state.md R40-R64). -/
theorem hostReg_eq_some_iff {c : Config} {addr : Byte} {r : HostReg} :
    hostReg c addr = some r ↔ r.Mapped c ∧ addr.toNat = r.addr := by
  refine ⟨fun h => ⟨mapped_of_hostReg h, addr_toNat_of_hostReg h⟩, ?_⟩
  rintro ⟨hmapped, haddr⟩
  cases r with
  | dispBuf i =>
    have hi : i < c.nDigits := hmapped
    have hlt : i + 0x20 < 0x20 + c.nDigits := by omega
    have haddr' : addr.toNat = i + 0x20 := haddr.trans (Nat.add_comm ..)
    unfold hostReg
    rw [haddr']
    simp [hlt]
  | _ => unfold hostReg; rw [haddr]; rfl

/-- The gap 0x17..0x1F and what lies above DISPBUF are unmapped (10_state.md R64). -/
theorem hostReg_eq_none {c : Config} {addr : Byte}
    (h : (0x17 ≤ addr.toNat ∧ addr.toNat < 0x20) ∨ 0x20 + c.nDigits ≤ addr.toNat) :
    hostReg c addr = none := by
  refine Option.eq_none_iff_forall_ne_some.mpr fun r hreg => ?_
  obtain ⟨hmapped, haddr⟩ := hostReg_eq_some_iff.mp hreg
  cases r with
  | dispBuf i => simp only [HostReg.Mapped, HostReg.addr] at hmapped haddr; omega
  | _ => simp only [HostReg.addr] at haddr; omega

theorem HostReg.Mapped.addr_lt {c : Config} (hc : c.Valid) {r : HostReg} (hr : r.Mapped c) :
    r.addr < 256 := by
  have hn := hc.nDigits_le
  cases r with
  | dispBuf i => simp only [HostReg.Mapped, HostReg.addr] at hr ⊢; omega
  | _ => decide

theorem hostReg_ofNat_addr {c : Config} (hc : c.Valid) {r : HostReg} (hr : r.Mapped c) :
    hostReg c (BitVec.ofNat 8 r.addr) = some r :=
  hostReg_eq_some_iff.mpr ⟨hr, (BitVec.toNat_ofNat ..).trans (Nat.mod_eq_of_lt (hr.addr_lt hc))⟩

/-- HRD of a register returns its byte and changes nothing (45_host.md R270). -/
theorem exec_hrd_reg (s : State) {r : HostReg} (hr : r.Mapped Config.hw) {v : Byte}
    (hv : regByte s r = v) :
    exec (.hrd (BitVec.ofNat 8 r.addr)) s = .next { s with outs := [.rd v] } := by
  have hbyte : hostByte Config.hw s (BitVec.ofNat 8 r.addr) = v := by
    rw [hostByte, hostReg_ofNat_addr Config.hw_valid hr, ← hv]
  rw [← hbyte]
  rfl

/-- HRD of an unmapped address returns 0x00 and changes nothing (45_host.md R270). -/
theorem exec_hrd_unmapped (s : State) {addr : Byte} (h : hostReg Config.hw addr = none) :
    exec (.hrd addr) s = .next { s with outs := [.rd 0#8] } := by
  have hbyte : hostByte Config.hw s addr = 0#8 := by rw [hostByte, h]
  rw [← hbyte]
  rfl

/-- HWR of a register is the write of that register, from an empty output list (45_host.md R271). -/
theorem exec_hwr_reg {s t : State} {r : HostReg} {d : Byte} (hr : r.Mapped Config.hw)
    (ht : writeReg Config.hw r d (startOp s) = t) :
    exec (.hwr (BitVec.ofNat 8 r.addr) d) s = .next t := by
  have hop : opHwr Config.hw (BitVec.ofNat 8 r.addr) d s = t := by
    rw [opHwr, hostReg_ofNat_addr Config.hw_valid hr, ← ht]
  exact congrArg Host.Outcome.next hop

/-- HWR of an unmapped address changes nothing (45_host.md R286). -/
theorem exec_hwr_unmapped (s : State) {addr : Byte} (h : hostReg Config.hw addr = none) (d : Byte) :
    exec (.hwr addr d) s = .next { s with outs := [] } := by
  have hop : opHwr Config.hw addr d s = startOp s := by rw [opHwr, h]
  exact congrArg Host.Outcome.next hop

theorem flagByte3_eq_bitsByte (f0 f1 f2 : Bool) : flagByte3 f0 f1 f2 = bitsByte f0 f1 f2 := by
  cases f0 <;> cases f1 <;> cases f2 <;> rfl

theorem flagByte_eq_bitsByte (f : Bool) : flagByte f = bitsByte f false false := by
  cases f <;> rfl

/-- The low byte of a 16-bit register, as SNOOZE_L shows it (10_state.md R50). -/
theorem extractLsb_low_eq_ofNat (x : Half) : x.extractLsb' 0 8 = BitVec.ofNat 8 (x.toNat % 256) := by
  apply BitVec.eq_of_toNat_eq
  simp

/-- The high byte of a 16-bit register, as SNOOZE_H shows it (10_state.md R51). -/
theorem extractLsb_high_eq_ofNat (x : Half) : x.extractLsb' 8 8 = BitVec.ofNat 8 (x.toNat / 256) := by
  apply BitVec.eq_of_toNat_eq
  simp [Nat.shiftRight_eq_div_pow]

/-- One write to canonical storage is a store at its address (20_memory.md R72). -/
theorem storedThrough_write {c : Config} {m : Memory} (h : Memory.wf c m = true) (a v : Byte) :
    StoredThrough c m (Memory.write c m a.toNat v) a.toNat v :=
  ⟨Memory.wf_write h a v, Memory.read_write_same h a.toNat v,
    fun _ hother => Memory.read_write_other h hother v⟩

/-- A write to BRIGHT: the level stored, then driven (45_host.md R280). -/
theorem writeBright_eq (c : Config) (d : Byte) (s : State) :
    writeBright c d s =
      { s with
        dimmer := { s.dimmer with bright := clampq c d, brightOut := clampq c d }
        nv := Memory.write c s.nv 0x08 (clampq c d)
        outs := s.outs ++ .nvw 0x08#8 (clampq c d) ::
          if s.dimmer.brightOut = clampq c d then [] else [.bright (clampq c d)] } := by
  rw [writeBright, driveBright_eq, storeThrough_eq]
  simp

/-- A write to DIM_CTRL: the flag stored, and on disabling the stored level driven (45_host.md R281). -/
theorem writeDimCtrl_eq (c : Config) (d : Byte) (s : State) :
    writeDimCtrl c d s =
      { s with
        dimmer := { s.dimmer with
          dimmerEn := d.getLsbD 0
          brightOut := if d.getLsbD 0 then s.dimmer.brightOut else s.dimmer.bright }
        nv := Memory.write c s.nv 0x0B (flagByte (d.getLsbD 0))
        outs := s.outs ++ .nvw 0x0B#8 (flagByte (d.getLsbD 0)) ::
          if d.getLsbD 0 = true ∨ s.dimmer.brightOut = s.dimmer.bright then []
          else [.bright s.dimmer.bright] } := by
  simp only [writeDimCtrl, storeThrough_eq, driveBright_eq]
  cases d.getLsbD 0 <;> simp

/-- A just-pressed flag stays where the bit written is 0 (45_host.md R277). -/
theorem clearJp_eq (x : Button) (clear : Bool) :
    clearJp x clear = { x with justPressed := x.justPressed && !clear } := by
  cases clear <;> simp [clearJp]

theorem writeBtnJp_get (d : Byte) (s : State) (id : ButtonId) :
    (writeBtnJp d s).buttons.get id = { s.buttons.get id with
      justPressed := (s.buttons.get id).justPressed && !d.getLsbD (buttonIndex id).toNat } := by
  cases id with
  | a => exact clearJp_eq s.buttons.a (d.getLsbD 0)
  | b => exact clearJp_eq s.buttons.b (d.getLsbD 1)
  | c => exact clearJp_eq s.buttons.c (d.getLsbD 2)

/-- A write to DISP_MODE of a byte that names a mode sets the mode (45_host.md R279). -/
theorem writeDispMode_of_ofByte_eq_some {d : Byte} {m : DisplayMode}
    (h : DisplayMode.ofByte d = some m) (s : State) : writeDispMode d s = { s with mode := m } := by
  rw [writeDispMode, h]

theorem ofByte_eq_none {d : Byte} (h : 10 ≤ d.toNat) : DisplayMode.ofByte d = none := by
  refine Option.eq_none_iff_forall_ne_some.mpr fun m hm => ?_
  obtain ⟨hle, -⟩ := ofByte_eq_some hm
  omega

end Sys2Proof.Machine
end

section
/-! PROOFS. The host port, statement by statement: NOP, the bytes that HRD returns, and the writes of HWR
(45_host.md R270-R292). -/

namespace Sys2Proof.Machine

/-- Settles O10: NOP is `startOp`. -/
theorem nopChangesNothing : Obligations.NopChangesNothing := fun _ => rfl

/-- Settles O11: the byte of each named register, of DISP_MODE and of a position of DISPBUF is `regByte`,
and an unmapped address has no register. -/
theorem hrdReturnsTheRegisterByte : Obligations.HrdReturnsTheRegisterByte := by
  refine ⟨fun s => ?named, fun s p hp hmode => ?mode, fun s i hi hlen => ?buffer, fun s a ha => ?unmapped⟩
  case named =>
    simp only [List.forall_mem_cons]
    exact ⟨exec_hrd_reg s (r := .timeS) trivial rfl, exec_hrd_reg s (r := .timeM) trivial rfl,
      exec_hrd_reg s (r := .timeH) trivial rfl, exec_hrd_reg s (r := .dateD) trivial rfl,
      exec_hrd_reg s (r := .dateM) trivial rfl, exec_hrd_reg s (r := .dateY) trivial rfl,
      exec_hrd_reg s (r := .alarmM) trivial rfl, exec_hrd_reg s (r := .alarmH) trivial rfl,
      exec_hrd_reg s (r := .almCtrl) trivial (flagByte_eq_bitsByte _),
      exec_hrd_reg s (r := .almStat) trivial (flagByte3_eq_bitsByte ..),
      exec_hrd_reg s (r := .snoozeL) trivial (extractLsb_low_eq_ofNat _),
      exec_hrd_reg s (r := .snoozeH) trivial (extractLsb_high_eq_ofNat _),
      exec_hrd_reg s (r := .btnRaw) trivial (flagByte3_eq_bitsByte ..),
      exec_hrd_reg s (r := .btnJp) trivial (flagByte3_eq_bitsByte ..),
      exec_hrd_reg s (r := .btnHeld) trivial (flagByte3_eq_bitsByte ..),
      exec_hrd_reg s (r := .bright) trivial rfl, exec_hrd_reg s (r := .brightOut) trivial rfl,
      exec_hrd_reg s (r := .dimCtrl) trivial (flagByte_eq_bitsByte _),
      exec_hrd_reg s (r := .inact) trivial rfl,
      exec_hrd_reg s (r := .status) trivial (flagByte_eq_bitsByte _),
      exec_hrd_reg s (r := .volume) trivial rfl, exec_hrd_reg s (r := .region) trivial rfl,
      List.forall_mem_nil _⟩
  case mode =>
    have hcode : ∀ p ∈ modeNumbers, p.1.code.setWidth 8 = p.2 := by decide
    exact exec_hrd_reg s (r := .dispMode) trivial (by rw [regByte, hmode, hcode p hp])
  case buffer =>
    have hmapped : (HostReg.dispBuf i).Mapped Config.hw := hi.trans_eq hlen
    exact exec_hrd_reg s hmapped (List.getElem_eq_getD 0#8).symm
  case unmapped => exact exec_hrd_unmapped s (hostReg_eq_none ha)

/-- Settles O12: each write is StoreThrough of the legalised byte. -/
theorem hwrStoresTimeDateAndAlarm : Obligations.HwrStoresTimeDateAndAlarm := by
  intro s d hwf
  have hday := wrap1_toNat d (m := 31) (by decide) (by decide)
  have hmonth := wrap1_toNat d (m := 12) (by decide) (by decide)
  exact ⟨
    ⟨_, _, modN_toNat d 60, storedThrough_write hwf 0x02#8 _, exec_hwr_reg (r := .timeS) trivial rfl⟩,
    ⟨_, _, modN_toNat d 60, storedThrough_write hwf 0x01#8 _, exec_hwr_reg (r := .timeM) trivial rfl⟩,
    ⟨_, _, modN_toNat d 24, storedThrough_write hwf 0x00#8 _, exec_hwr_reg (r := .timeH) trivial rfl⟩,
    ⟨_, _, hday, storedThrough_write hwf 0x05#8 _, exec_hwr_reg (r := .dateD) trivial rfl⟩,
    ⟨_, _, hmonth, storedThrough_write hwf 0x06#8 _, exec_hwr_reg (r := .dateM) trivial rfl⟩,
    ⟨_, _, modN_toNat d 100, storedThrough_write hwf 0x07#8 _, exec_hwr_reg (r := .dateY) trivial rfl⟩,
    ⟨_, _, modN_toNat d 60, storedThrough_write hwf 0x04#8 _, exec_hwr_reg (r := .alarmM) trivial rfl⟩,
    ⟨_, _, modN_toNat d 24, storedThrough_write hwf 0x03#8 _,
      exec_hwr_reg (r := .alarmH) trivial rfl⟩⟩

/-- Settles O13: `writeBright_eq`. -/
theorem hwrBrightStoresAndDrives : Obligations.HwrBrightStoresAndDrives := fun _ _ hwf =>
  ⟨_, storedThrough_write hwf 0x08#8 _, exec_hwr_reg (r := .bright) trivial (writeBright_eq ..)⟩

/-- Settles O14: `writeDimCtrl_eq` for each value of bit 0. -/
theorem hwrDimCtrlStoresAndRestores : Obligations.HwrDimCtrlStoresAndRestores := by
  intro s d hwf
  have hwrite := writeDimCtrl_eq Config.hw d (startOp s)
  constructor
  · intro hset
    rw [hset] at hwrite
    refine ⟨_, storedThrough_write hwf 0x0B#8 1#8, exec_hwr_reg (r := .dimCtrl) trivial ?_⟩
    exact hwrite.trans (by simp [flagByte])
  · intro hclear
    rw [hclear] at hwrite
    refine ⟨_, storedThrough_write hwf 0x0B#8 0#8, exec_hwr_reg (r := .dimCtrl) trivial ?_⟩
    exact hwrite.trans (by simp [flagByte])

/-- Settles O15: StoreThrough of the byte as it is. -/
theorem hwrStoresVolumeAndRegion : Obligations.HwrStoresVolumeAndRegion := fun _ d hwf =>
  ⟨⟨_, storedThrough_write hwf 0x09#8 d, exec_hwr_reg (r := .volume) trivial rfl⟩,
    ⟨_, storedThrough_write hwf 0x0A#8 d, exec_hwr_reg (r := .region) trivial rfl⟩⟩

/-- Settles O16: AlarmEnable or AlarmDisable, by bit 0. -/
theorem hwrAlmCtrlEnablesOrDisables : Obligations.HwrAlmCtrlEnablesOrDisables := by
  intro s d
  constructor
  · intro hset
    exact exec_hwr_reg (r := .almCtrl) trivial (if_pos hset)
  · intro hclear
    have hdisable : writeAlmCtrl Config.hw d (startOp s) = alarmDisable Config.hw (startOp s) :=
      if_neg (Bool.eq_false_iff.mp hclear)
    exact exec_hwr_reg (r := .almCtrl) trivial (hdisable.trans (alarmDisable_eq ..))

/-- Settles O17: the buttons are those of `writeBtnJp_get`. -/
theorem hwrBtnJpClearsNamedFlags : Obligations.HwrBtnJpClearsNamedFlags := fun s d =>
  ⟨_, exec_hwr_reg (r := .btnJp) trivial rfl, writeBtnJp_get d (startOp s)⟩

/-- Settles O18: a byte below 10 names a mode, and a byte from 10 up names none. -/
theorem hwrDispModeTakesTenValues : Obligations.HwrDispModeTakesTenValues := by
  refine ⟨fun s p hp => ?_, fun s d hd => ?_⟩
  · have hmode : DisplayMode.ofByte p.1 = some p.2 := by
      revert p
      decide
    exact exec_hwr_reg (r := .dispMode) trivial (writeDispMode_of_ofByte_eq_some hmode (startOp s))
  · have hkept : writeDispMode d (startOp s) = startOp s := by rw [writeDispMode, ofByte_eq_none hd]
    exact exec_hwr_reg (r := .dispMode) trivial hkept

/-- Settles O19: each register takes the data and no other field changes. -/
theorem hwrInactAndStatus : Obligations.HwrInactAndStatus := fun _ _ =>
  ⟨exec_hwr_reg (r := .inact) trivial rfl, exec_hwr_reg (r := .status) trivial rfl⟩

/-- Settles O20: the buffer is the old one with position `i` set. -/
theorem hwrDispBufSetsOneByte : Obligations.HwrDispBufSetsOneByte := fun s i d hlen hi =>
  ⟨s.dispBuf.set i d, exec_hwr_reg (r := .dispBuf i) hi rfl, List.length_set,
    List.getElem?_set_self (hi.trans_eq hlen.symm), fun _ hj => List.getElem?_set_ne hj.symm⟩

/-- Settles O21: the write of a read-only register is no change, and an unmapped address has no
register. -/
theorem hwrElsewhereChangesNothing : Obligations.HwrElsewhereChangesNothing := by
  rintro s a d (hreadOnly | hunmapped)
  · revert a
    simp only [List.forall_mem_cons]
    exact ⟨exec_hwr_reg (r := .almStat) trivial rfl, exec_hwr_reg (r := .snoozeL) trivial rfl,
      exec_hwr_reg (r := .snoozeH) trivial rfl, exec_hwr_reg (r := .btnRaw) trivial rfl,
      exec_hwr_reg (r := .btnHeld) trivial rfl, exec_hwr_reg (r := .brightOut) trivial rfl,
      List.forall_mem_nil _⟩
  · exact exec_hwr_unmapped s (hostReg_eq_none hunmapped) d

end Sys2Proof.Machine
end

section
/-! PROOFS. What no host access can reach (45_host.md R286, R287). -/

namespace Sys2Proof.Machine

/-- `t` has the hidden state of `s`: the multiplexer, the pulse divider, the switch latch, the pending
flag and the events to come, and each button differs in its just-pressed flag at most (45_host.md
R287). -/
structure HiddenKept (s t : State) : Prop where
  mux : t.mux = s.mux
  almDiv : t.alarm.almDiv = s.alarm.almDiv
  almswLvl : t.alarm.almswLvl = s.alarm.almswLvl
  adcPending : t.dimmer.adcPending = s.dimmer.adcPending
  inbox : t.inbox = s.inbox
  button : ∀ id, ∃ jp, t.buttons.get id = { s.buttons.get id with justPressed := jp }

/-- Where the buttons are as they were, their just-pressed flags are too; of most writes the other five
parts hold by computation. -/
theorem HiddenKept.of_buttons_eq {s t : State} (hbuttons : t.buttons = s.buttons)
    (hmux : t.mux = s.mux := by rfl) (hdiv : t.alarm.almDiv = s.alarm.almDiv := by rfl)
    (hsw : t.alarm.almswLvl = s.alarm.almswLvl := by rfl)
    (hadc : t.dimmer.adcPending = s.dimmer.adcPending := by rfl)
    (hin : t.inbox = s.inbox := by rfl) : HiddenKept s t :=
  ⟨hmux, hdiv, hsw, hadc, hin, fun id => ⟨(s.buttons.get id).justPressed, by rw [hbuttons]⟩⟩

theorem hiddenKept_writeReg (c : Config) (r : HostReg) (d : Byte) (s : State) :
    HiddenKept s (writeReg c r d s) := by
  cases r with
  | btnJp => exact ⟨rfl, rfl, rfl, rfl, rfl, fun id => ⟨_, writeBtnJp_get d s id⟩⟩
  | almCtrl =>
    simp only [writeReg, writeAlmCtrl, alarmDisable_eq]
    split
    · exact .of_buttons_eq rfl
    · exact .of_buttons_eq rfl
  | dispMode =>
    simp only [writeReg, writeDispMode]
    split
    · exact .of_buttons_eq rfl
    · exact .of_buttons_eq rfl
  | bright =>
    rw [writeReg, writeBright_eq]
    exact .of_buttons_eq rfl
  | dimCtrl =>
    rw [writeReg, writeDimCtrl_eq]
    exact .of_buttons_eq rfl
  | timeS | timeM | timeH | dateD | dateM | dateY | alarmM | alarmH | volume | region =>
    exact .of_buttons_eq rfl
  | inact | status | dispBuf i => exact .of_buttons_eq rfl
  | almStat | snoozeL | snoozeH | btnRaw | btnHeld | brightOut => exact .of_buttons_eq rfl

theorem hiddenKept_opHwr (c : Config) (addr d : Byte) (s : State) :
    HiddenKept s (opHwr c addr d s) := by
  unfold opHwr
  cases hostReg c addr with
  | some r => exact { hiddenKept_writeReg c r d (startOp s) with }
  | none => exact .of_buttons_eq rfl

theorem hiddenKept_opHrd (c : Config) (addr : Byte) (s : State) :
    HiddenKept s (opHrd c addr s) := .of_buttons_eq rfl

/-- Settles O52: a host access keeps the hidden state. -/
theorem hostCannotReachHiddenState : Obligations.HostCannotReachHiddenState := by
  intro s a d
  refine ⟨opHwr Config.hw a d s, opHrd Config.hw a s, rfl, rfl, fun x hx => ?_⟩
  have hkept : HiddenKept s x := by
    obtain rfl | rfl : x = opHwr Config.hw a d s ∨ x = opHrd Config.hw a s := by simpa using hx
    · exact hiddenKept_opHwr Config.hw a d s
    · exact hiddenKept_opHrd Config.hw a s
  refine ⟨hkept.mux, hkept.almDiv, hkept.almswLvl, hkept.adcPending, hkept.inbox, fun id => ?_⟩
  obtain ⟨jp, hbutton⟩ := hkept.button id
  rw [hbutton]
  exact ⟨rfl, rfl, rfl, rfl, rfl⟩

end Sys2Proof.Machine
end

section
/-! PROOFS. Every operation completes, and what FTICK leaves as it was: the frame of each of its parts,
composed (60_exceptions.md R300, R314, 40_mux.md R134). -/

namespace Sys2Proof.Machine

/-- The index 3 is the only one that names no button (30_encoding.md R102). -/
theorem exists_eq_buttonIndex {b : BitVec 2} (h : b ≠ 3#2) : ∃ id, b = buttonIndex id := by
  have hnamed : ∀ b : BitVec 2, b ≠ 3#2 → (buttonOf b).isSome = true := by decide
  obtain ⟨id, hid⟩ := Option.isSome_iff_exists.mp (hnamed b h)
  exact ⟨id, buttonOf_eq_some hid⟩

/-- A well-formed operation executes (60_exceptions.md R300). -/
theorem exists_executes {i : Instr} (h : i.wellFormed = true) (s : State) : ∃ t, Executes s i t := by
  cases i with
  | nop => exact ⟨_, .nop⟩
  | ftick => exact ⟨_, .ftick⟩
  | stick => exact ⟨_, .stick⟩
  | pin b lvl =>
    obtain ⟨id, rfl⟩ := exists_eq_buttonIndex (bne_iff_ne.mp h)
    exact ⟨_, .pin id lvl⟩
  | adcdone v => exact ⟨_, .adcdone v⟩
  | almsw lvl => exact ⟨_, .almsw lvl⟩
  | hwr addr data => exact ⟨_, .hwr addr data⟩
  | hrd addr => exact ⟨_, .hrd addr⟩
  | reset => exact ⟨_, .reset⟩

/-- Settles O9: `Executes` names the next state of every well-formed operation. -/
theorem everyOperationCompletes : Obligations.EveryOperationCompletes := fun _ s hwf =>
  (exists_executes hwf s).imp fun _ => exec_eq_next_iff.mpr

/-- `u` differs from `s` at most in what the parts of FTICK write: the multiplexer, the buttons, the
mode, the output list, and the pulse and the snooze of the alarm (60_exceptions.md R314). -/
def FtickFrame (s u : State) : Prop :=
  u = { s with
    mux := u.mux
    buttons := u.buttons
    mode := u.mode
    outs := u.outs
    alarm := { s.alarm with
      almDiv := u.alarm.almDiv
      pulsePhase := u.alarm.pulsePhase
      buzzerOn := u.alarm.buzzerOn
      snooze := u.alarm.snooze } }

theorem FtickFrame.trans {s u v : State} (hsu : FtickFrame s u) (huv : FtickFrame u v) :
    FtickFrame s v := by
  unfold FtickFrame at hsu huv ⊢
  exact huv.trans (by rw [hsu])

theorem ftickFrame_startOp (s : State) : FtickFrame s (startOp s) := rfl

theorem ftickFrame_muxStep (c : Config) (s : State) : FtickFrame s (muxStep c s) := by
  rw [muxStep_frame]
  rfl

theorem ftickFrame_almStep (c : Config) (s : State) : FtickFrame s (almStep c s) := by
  rw [almStep_frame]
  rfl

theorem ftickFrame_btnStep (c : Config) (id : ButtonId) (s : State) :
    FtickFrame s (btnStep c id s) := by
  rw [btnStep_frame, btnStep_alarm]
  split
  · rfl
  · rfl

/-- The frame of FTICK is that of its five parts (40_mux.md R130). -/
theorem ftickFrame_opFtick (c : Config) (s : State) : FtickFrame s (opFtick c s) :=
  (ftickFrame_startOp s).trans <| (ftickFrame_muxStep c _).trans <|
    (ftickFrame_almStep c _).trans <| (ftickFrame_btnStep c .a _).trans <|
      (ftickFrame_btnStep c .b _).trans (ftickFrame_btnStep c .c _)

/-- No rule of BtnStep writes the pin latch (10_state.md R36). -/
@[simp] theorem btnAfter_pinLvl (c : Config) (id : ButtonId) (ringing : Bool) (x : Button) :
    (btnAfter c id ringing x).pinLvl = x.pinLvl := by
  unfold btnAfter
  split
  case h_1 => split_ifs <;> rfl
  case h_2 => split <;> rfl
  all_goals rfl

/-- Settles O35: `ftickFrame_opFtick`, and the pin latches button by button. -/
theorem ftickLeavesTimeAndStorage : Obligations.FtickLeavesTimeAndStorage := by
  intro s
  have hpin : ∀ id, ((opFtick Config.hw s).buttons.get id).pinLvl = (s.buttons.get id).pinLvl :=
    fun id => by rw [opFtick_buttons_get, btnAfter_pinLvl]
  refine ⟨opFtick Config.hw s, rfl, ?_⟩
  rw [ftickFrame_opFtick Config.hw s]
  exact ⟨rfl, rfl, rfl, rfl, rfl, rfl, rfl, rfl, rfl, rfl, rfl, rfl, rfl, rfl, hpin⟩

end Sys2Proof.Machine
end

section
/-! PROOFS. Each field and its writers (60_exceptions.md R314): what an operation may change, block by
block, and each operation held to it. A field that an operation leaves as it is holds by computation, so
that an operation's proof names the fields it writes and no others. -/

namespace Sys2Proof.Machine

/-- The operation is a host write to one of the addresses. -/
def HwrTo (addrs : List Byte) (i : Instr) : Prop := ∃ a ∈ addrs, ∃ d, i = .hwr a d

/-- The operation is one that can disable the alarm: the switch turned off, or a host write of ALM_CTRL
with bit 0 clear (43_alarm.md R232). -/
def Disables (i : Instr) : Prop :=
  i = .almsw false ∨ ∃ d : Byte, i = .hwr 0x08#8 d ∧ d.getLsbD 0 = false

/-- The writers of the time and the date, `x` before and `y` after. -/
structure Clock.Writers (i : Instr) (x y : Clock) : Prop where
  second : y.second ≠ x.second → i = .stick ∨ HwrTo [0x00#8] i := by exact absurd rfl
  minute : y.minute ≠ x.minute → i = .stick ∨ HwrTo [0x01#8] i := by exact absurd rfl
  hour : y.hour ≠ x.hour → i = .stick ∨ HwrTo [0x02#8] i := by exact absurd rfl
  day : y.day ≠ x.day → i = .stick ∨ HwrTo [0x03#8] i := by exact absurd rfl
  month : y.month ≠ x.month → i = .stick ∨ HwrTo [0x04#8] i := by exact absurd rfl
  year : y.year ≠ x.year → i = .stick ∨ HwrTo [0x05#8] i := by exact absurd rfl

/-- The writers of the alarm sequencer's registers. -/
structure Alarm.Writers (i : Instr) (x y : Alarm) : Prop where
  alarmH : y.alarmH ≠ x.alarmH → HwrTo [0x07#8] i := by exact absurd rfl
  alarmM : y.alarmM ≠ x.alarmM → HwrTo [0x06#8] i := by exact absurd rfl
  alarmEn : y.alarmEn ≠ x.alarmEn → (∃ l, i = .almsw l) ∨ HwrTo [0x08#8] i := by exact absurd rfl
  ringing : y.ringing ≠ x.ringing → i = .stick ∨ Disables i := by exact absurd rfl
  snooze : y.snooze ≠ x.snooze → i = .stick ∨ i = .ftick ∨ Disables i := by exact absurd rfl
  pulsePhase : y.pulsePhase ≠ x.pulsePhase → i = .ftick ∨ Disables i := by exact absurd rfl
  buzzerOn : y.buzzerOn ≠ x.buzzerOn → i = .ftick ∨ Disables i := by exact absurd rfl
  almDiv : y.almDiv ≠ x.almDiv → i = .ftick := by exact absurd rfl
  almswLvl : y.almswLvl ≠ x.almswLvl → ∃ l, i = .almsw l := by exact absurd rfl

/-- The writers of the registers of button `id`. -/
structure Button.Writers (i : Instr) (id : ButtonId) (x y : Button) : Prop where
  pinLvl : y.pinLvl ≠ x.pinLvl → ∃ l, i = .pin (buttonIndex id) l := by exact absurd rfl
  machine : y.st ≠ x.st ∨ y.cnt ≠ x.cnt ∨ y.rawPressed ≠ x.rawPressed ∨ y.held ≠ x.held →
    i = .ftick ∨ ∃ l, i = .pin (buttonIndex id) l := by simp
  justPressed_set : (x.st = .grace → id = repeatBtn) → x.justPressed = false → y.justPressed = true →
    (i = .ftick ∧ id ≠ repeatBtn) ∨ (i = .pin (buttonIndex id) true ∧ id = repeatBtn) := by
    exact fun _ hx hy => absurd (hx.symm.trans hy) Bool.false_ne_true
  justPressed_clear : x.justPressed = true → y.justPressed = false → HwrTo [0x0D#8] i := by
    exact fun hx hy => absurd (hy.symm.trans hx) Bool.false_ne_true

/-- The writers of the dimmer's registers. -/
structure Dimmer.Writers (i : Instr) (x y : Dimmer) : Prop where
  bright : y.bright ≠ x.bright → HwrTo [0x10#8] i := by exact absurd rfl
  brightOut : y.brightOut ≠ x.brightOut → (∃ v, i = .adcdone v) ∨ HwrTo [0x10#8, 0x12#8] i := by
    exact absurd rfl
  dimmerEn : y.dimmerEn ≠ x.dimmerEn → HwrTo [0x12#8] i := by exact absurd rfl
  adcPending : y.adcPending ≠ x.adcPending → i = .stick ∨ ∃ v, i = .adcdone v := by exact absurd rfl

theorem Clock.Writers.refl (i : Instr) (x : Clock) : x.Writers i x := {}
theorem Alarm.Writers.refl (i : Instr) (x : Alarm) : x.Writers i x := {}
theorem Button.Writers.refl (i : Instr) (id : ButtonId) (x : Button) : x.Writers i id x := {}
theorem Dimmer.Writers.refl (i : Instr) (x : Dimmer) : x.Writers i x := {}

/-- The writers of the whole state, `s` before and `t` after. -/
structure State.Writers (i : Instr) (s t : State) : Prop where
  clock : s.clock.Writers i t.clock := by exact .refl ..
  alarm : s.alarm.Writers i t.alarm := by exact .refl ..
  button : ∀ id, (s.buttons.get id).Writers i id (t.buttons.get id) := by exact fun _ => .refl ..
  dimmer : s.dimmer.Writers i t.dimmer := by exact .refl ..
  dispBuf : t.dispBuf ≠ s.dispBuf → i = .stick ∨ ∃ a : Byte, 0x20 ≤ a.toNat ∧
    a.toNat < 0x20 + Config.hw.nDigits ∧ HwrTo [a] i := by exact absurd rfl
  mode : t.mode ≠ s.mode → i = .ftick ∨ HwrTo [0x0F#8] i := by exact absurd rfl
  mux : t.mux ≠ s.mux → i = .ftick := by exact absurd rfl
  inact : t.inact ≠ s.inact → i = .stick ∨ HwrTo [0x13#8] i := by exact absurd rfl
  timeUnknown : t.timeUnknown ≠ s.timeUnknown → HwrTo [0x14#8] i := by exact absurd rfl
  volume : t.volume ≠ s.volume → HwrTo [0x15#8] i := by exact absurd rfl
  region : t.region ≠ s.region → HwrTo [0x16#8] i := by exact absurd rfl
  inbox : t.inbox = s.inbox := by rfl

/-- BtnStep raises a just-pressed flag of a button that is not the repeatable one, and clears none
(41_buttons.md R156). -/
theorem btnAfter_justPressed_cases (c : Config) (id : ButtonId) (ringing : Bool) (x : Button) :
    (btnAfter c id ringing x).justPressed = x.justPressed ∨
      id ≠ repeatBtn ∧ (btnAfter c id ringing x).justPressed = true := by
  unfold btnAfter
  split
  case h_1 =>
    split_ifs with hends hquiet hrepeat
    · exact .inl rfl
    · exact .inl rfl
    · exact .inr ⟨hrepeat, rfl⟩
    · exact .inl rfl
  case h_2 => split <;> exact .inl rfl
  all_goals exact .inl rfl

/-- A release in the grace window raises the just-pressed flag, and no edge clears it (41_buttons.md
R158). -/
theorem btnEdge_justPressed_cases (lvl : Bool) (x : Button) :
    (btnEdge lvl x).justPressed = x.justPressed ∨
      lvl = true ∧ x.st = .grace ∧ (btnEdge lvl x).justPressed = true := by
  unfold btnEdge
  split_ifs with hsame hlvl
  · exact .inl rfl
  · unfold btnReleased
    split
    case h_5 hgrace => exact .inr ⟨hlvl, hgrace, rfl⟩
    all_goals exact .inl rfl
  · unfold btnPressed
    split <;> exact .inl rfl

theorem Button.writers_btnAfter (c : Config) (id : ButtonId) (ringing : Bool) (x : Button) :
    x.Writers .ftick id (btnAfter c id ringing x) where
  pinLvl h := absurd (btnAfter_pinLvl c id ringing x) h
  machine _ := .inl rfl
  justPressed_set _ hx hy := by
    rcases btnAfter_justPressed_cases c id ringing x with hkept | ⟨hid, -⟩
    · rw [hkept, hx] at hy
      cases hy
    · exact .inl ⟨rfl, hid⟩
  justPressed_clear hx hy := by
    rcases btnAfter_justPressed_cases c id ringing x with hkept | ⟨-, hset⟩
    · rw [hkept, hx] at hy
      cases hy
    · rw [hset] at hy
      cases hy

theorem Button.writers_btnEdge (id : ButtonId) (lvl : Bool) (x : Button) :
    x.Writers (.pin (buttonIndex id) lvl) id (btnEdge lvl x) where
  pinLvl _ := ⟨lvl, rfl⟩
  machine _ := .inr ⟨lvl, rfl⟩
  justPressed_set hgrace hx hy := by
    rcases btnEdge_justPressed_cases lvl x with hkept | ⟨rfl, hst, -⟩
    · rw [hkept, hx] at hy
      cases hy
    · exact .inr ⟨rfl, hgrace hst⟩
  justPressed_clear hx hy := by
    rcases btnEdge_justPressed_cases lvl x with hkept | ⟨-, -, hset⟩
    · rw [hkept, hx] at hy
      cases hy
    · rw [hset] at hy
      cases hy

theorem State.writers_opFtick (c : Config) (s : State) : s.Writers .ftick (opFtick c s) := by
  have hbutton : ∀ id, (s.buttons.get id).Writers .ftick id ((opFtick c s).buttons.get id) :=
    fun id => by
      rw [opFtick_buttons_get]
      exact Button.writers_btnAfter ..
  rw [ftickFrame_opFtick c s]
  exact {
    alarm := {
      snooze := fun _ => .inr (.inl rfl)
      pulsePhase := fun _ => .inl rfl
      buzzerOn := fun _ => .inl rfl
      almDiv := fun _ => rfl }
    button := hbutton
    mode := fun _ => .inl rfl
    mux := fun _ => rfl }

theorem Clock.writers_stick (x y : Clock) : x.Writers .stick y where
  second _ := .inl rfl
  minute _ := .inl rfl
  hour _ := .inl rfl
  day _ := .inl rfl
  month _ := .inl rfl
  year _ := .inl rfl

/-- AlarmCheck and SnoozeStep write `ringing` and `snooze` only (43_alarm.md R220, R221). -/
theorem Alarm.writers_stick (x : Alarm) (t : Clock) :
    x.Writers .stick (x.checked t).countedDown := by
  unfold Alarm.checked
  split
  · exact { ringing := fun _ => .inl rfl, snooze := fun _ => .inl rfl }
  · exact { snooze := fun _ => .inl rfl }

theorem State.writers_opStick (c : Config) (s : State) : s.Writers .stick (opStick c s) := by
  rw [opStick_eq]
  exact {
    clock := Clock.writers_stick ..
    alarm := Alarm.writers_stick ..
    dimmer := { adcPending := fun _ => .inl rfl }
    dispBuf := fun _ => .inl rfl
    inact := fun _ => .inl rfl }

theorem State.writers_opPin (id : ButtonId) (lvl : Bool) (s : State) :
    s.Writers (.pin (buttonIndex id) lvl) (opPin id lvl s) := by
  have hbutton : ∀ j, (s.buttons.get j).Writers (.pin (buttonIndex id) lvl) j
      ((s.buttons.set id (btnEdge lvl (s.buttons.get id))).get j) := fun j => by
    by_cases hj : j = id
    · subst hj
      rw [Buttons.get_set_same]
      exact Button.writers_btnEdge ..
    · rw [Buttons.get_set_other _ _ _ _ hj]
      exact .refl ..
  rw [opPin_eq]
  exact { button := hbutton }

theorem State.writers_opAdcdone (c : Config) (v : Byte) (s : State) :
    s.Writers (.adcdone v) (opAdcdone c v s) := by
  unfold opAdcdone dimApply
  rw [driveBright_eq]
  split
  · exact { dimmer := {
      brightOut := fun _ => .inl ⟨v, rfl⟩
      adcPending := fun _ => .inr ⟨v, rfl⟩ } }
  · exact { dimmer := { adcPending := fun _ => .inr ⟨v, rfl⟩ } }

theorem State.writers_opAlmsw (c : Config) (lvl : Bool) (s : State) :
    s.Writers (.almsw lvl) (opAlmsw c lvl s) := by
  by_cases hrepeated : lvl = s.alarm.almswLvl
  · rw [hrepeated, opAlmsw_repeated]
    exact {}
  · cases lvl with
    | true =>
      rw [opAlmsw_true_of_off (Bool.eq_false_iff.mpr (Ne.symm hrepeated))]
      exact { alarm := { alarmEn := fun _ => .inl ⟨_, rfl⟩, almswLvl := fun _ => ⟨_, rfl⟩ } }
    | false =>
      rw [opAlmsw_false_of_on (Bool.eq_true_of_not_eq_false (Ne.symm hrepeated))]
      exact { alarm := {
        alarmEn := fun _ => .inl ⟨_, rfl⟩
        ringing := fun _ => .inr (.inl rfl)
        snooze := fun _ => .inr (.inr (.inl rfl))
        pulsePhase := fun _ => .inr (.inl rfl)
        buzzerOn := fun _ => .inr (.inl rfl)
        almswLvl := fun _ => ⟨_, rfl⟩ } }

/-- A host write is one to its own address. -/
theorem hwrTo_of_toNat_eq {addrs : List Byte} {addr a : Byte} (haddr : addr.toNat = a.toNat)
    (ha : a ∈ addrs) (d : Byte) : HwrTo addrs (.hwr addr d) :=
  ⟨addr, BitVec.eq_of_toNat_eq haddr ▸ ha, d, rfl⟩

/-- A host write of ALM_CTRL (45_host.md R276). -/
theorem State.writers_writeAlmCtrl (c : Config) (d : Byte) (s : State) :
    s.Writers (.hwr 0x08#8 d) (writeAlmCtrl c d s) := by
  have hen : HwrTo [0x08#8] (.hwr 0x08#8 d) := ⟨_, List.mem_singleton_self _, d, rfl⟩
  unfold writeAlmCtrl
  split
  · exact { alarm := { alarmEn := fun _ => .inr hen } }
  · next hclear =>
    have hdisables : Disables (.hwr 0x08#8 d) := .inr ⟨d, rfl, Bool.eq_false_iff.mpr hclear⟩
    rw [alarmDisable_eq]
    exact { alarm := {
      alarmEn := fun _ => .inr hen
      ringing := fun _ => .inr hdisables
      snooze := fun _ => .inr (.inr hdisables)
      pulsePhase := fun _ => .inr hdisables
      buzzerOn := fun _ => .inr hdisables } }

/-- A host write of BTN_JP clears flags and sets none (45_host.md R277). -/
theorem Button.writers_clearJp {i : Instr} (hi : HwrTo [0x0D#8] i) (id : ButtonId) (x : Button)
    (keep : Bool) : x.Writers i id { x with justPressed := x.justPressed && keep } where
  justPressed_set _ hx hy := by
    rw [hx] at hy
    cases hy
  justPressed_clear _ _ := hi

theorem State.writers_writeReg {r : HostReg} (hr : r.Mapped Config.hw) {addr : Byte}
    (haddr : addr.toNat = r.addr) (d : Byte) (s : State) :
    s.Writers (.hwr addr d) (writeReg Config.hw r d s) := by
  have hto : ∀ {addrs : List Byte} {a : Byte}, r.addr = a.toNat → a ∈ addrs →
      HwrTo addrs (.hwr addr d) := fun hreg ha => hwrTo_of_toNat_eq (haddr.trans hreg) ha d
  cases r with
  | timeS => exact { clock := { second := fun _ => .inr (hto rfl (.head _)) } }
  | timeM => exact { clock := { minute := fun _ => .inr (hto rfl (.head _)) } }
  | timeH => exact { clock := { hour := fun _ => .inr (hto rfl (.head _)) } }
  | dateD => exact { clock := { day := fun _ => .inr (hto rfl (.head _)) } }
  | dateM => exact { clock := { month := fun _ => .inr (hto rfl (.head _)) } }
  | dateY => exact { clock := { year := fun _ => .inr (hto rfl (.head _)) } }
  | alarmM => exact { alarm := { alarmM := fun _ => hto rfl (.head _) } }
  | alarmH => exact { alarm := { alarmH := fun _ => hto rfl (.head _) } }
  | almCtrl =>
    obtain rfl : addr = 0x08#8 := BitVec.eq_of_toNat_eq haddr
    exact State.writers_writeAlmCtrl ..
  | btnJp =>
    exact { button := fun id => writeBtnJp_get d s id ▸
      Button.writers_clearJp (hto rfl (.head _)) id _ _ }
  | dispMode =>
    rw [writeReg, writeDispMode]
    split
    · exact { mode := fun _ => .inr (hto rfl (.head _)) }
    · exact {}
  | bright =>
    rw [writeReg, writeBright_eq]
    exact { dimmer := {
      bright := fun _ => hto rfl (.head _)
      brightOut := fun _ => .inr (hto rfl (.head _)) } }
  | dimCtrl =>
    rw [writeReg, writeDimCtrl_eq]
    exact { dimmer := {
      brightOut := fun _ => .inr (hto rfl (.tail _ (.head _)))
      dimmerEn := fun _ => hto rfl (.head _) } }
  | inact => exact { inact := fun _ => .inr (hto rfl (.head _)) }
  | status => exact { timeUnknown := fun _ => hto rfl (.head _) }
  | volume => exact { volume := fun _ => hto rfl (.head _) }
  | region => exact { region := fun _ => hto rfl (.head _) }
  | dispBuf k =>
    have hrange : 0x20 ≤ addr.toNat ∧ addr.toNat < 0x20 + Config.hw.nDigits := by
      rw [haddr]
      exact ⟨Nat.le_add_right .., Nat.add_lt_add_left hr _⟩
    exact { dispBuf := fun _ => .inr ⟨addr, hrange.1, hrange.2, hto haddr.symm (.head _)⟩ }
  | almStat | snoozeL | snoozeH | btnRaw | btnHeld | brightOut => exact {}

theorem State.writers_opHwr (addr d : Byte) (s : State) :
    s.Writers (.hwr addr d) (opHwr Config.hw addr d s) := by
  unfold opHwr
  cases hreg : hostReg Config.hw addr with
  | none => exact {}
  | some r =>
    obtain ⟨hmapped, haddr⟩ := hostReg_eq_some_iff.mp hreg
    exact { State.writers_writeReg hmapped haddr d (startOp s) with }

/-- Every operation but RESET writes the fields it is listed for and no others (60_exceptions.md
R314). -/
theorem Executes.writers {i : Instr} {s t : State} (h : Executes s i t) (hi : i ≠ .reset) :
    s.Writers i t := by
  cases h with
  | nop => exact {}
  | ftick => exact State.writers_opFtick ..
  | stick => exact State.writers_opStick ..
  | pin id lvl => exact State.writers_opPin ..
  | adcdone v => exact State.writers_opAdcdone ..
  | almsw lvl => exact State.writers_opAlmsw ..
  | hwr addr d => exact State.writers_opHwr ..
  | hrd addr => exact {}
  | reset => exact absurd rfl hi

/-- Settles O53: `Executes.writers`, field by field. -/
theorem everyFieldHasItsWriters : Obligations.EveryFieldHasItsWriters := by
  intro i s t hexec hi
  obtain ⟨clock, alarm, button, dimmer, dispBuf, mode, mux, inact, timeUnknown, volume, region,
    inbox⟩ := (exec_eq_next_iff.mp hexec).writers hi
  exact ⟨clock.second, clock.minute, clock.hour, clock.day, clock.month, clock.year,
    alarm.alarmH, alarm.alarmM, alarm.alarmEn, alarm.ringing, alarm.snooze, alarm.pulsePhase,
    alarm.buzzerOn, alarm.almDiv, alarm.almswLvl,
    fun id => (button id).pinLvl, fun id => (button id).machine,
    fun id => (button id).justPressed_set, fun id => (button id).justPressed_clear,
    dispBuf, mode, dimmer.bright, dimmer.brightOut, dimmer.dimmerEn, dimmer.adcPending,
    mux, inact, timeUnknown, volume, region, inbox⟩

end Sys2Proof.Machine
end

section
/-! PROOFS. The events of one instant: each from its own port, in the fixed order (60_exceptions.md R308,
30_encoding.md R108). -/

namespace Sys2Proof.Machine

theorem mem_strobe {active : Bool} {i j : Instr} : i ∈ strobe active j ↔ active = true ∧ i = j := by
  cases active <;> simp [strobe]

theorem strobe_sublist (active : Bool) (i : Instr) : (strobe active i).Sublist [i] := by
  cases active
  · exact List.nil_sublist _
  · exact List.Sublist.refl _

/-- A level input gives its new level where that differs from the one before (30_encoding.md R108). -/
theorem level_changed_iff {now before l : Bool} {q : Prop} :
    ¬ now = before ∧ q ∧ l = now ↔ q ∧ l = now ∧ ¬ l = before := by
  constructor
  · rintro ⟨hchanged, hq, rfl⟩
    exact ⟨hq, rfl, hchanged⟩
  · rintro ⟨hq, rfl, hchanged⟩
    exact ⟨hchanged, hq, rfl⟩

/-- The events of an instant at which every port is active (60_exceptions.md R308). -/
def InPorts.allEvents (p : InPorts) : List Instr :=
  [.reset, .ftick, .stick, .pin 0#2 p.wires.btnA, .pin 1#2 p.wires.btnB, .pin 2#2 p.wires.btnC,
    .adcdone p.adcData, .almsw p.wires.almSw, .hwr p.hAddr p.hWdata, .hrd p.hAddr]

theorem events_sublist_allEvents (before : Wires) (p : InPorts) :
    (p.events before).Sublist p.allEvents :=
  (strobe_sublist _ .reset).append (strobe_sublist _ .ftick)
    |>.append (strobe_sublist _ .stick)
    |>.append (strobe_sublist _ (.pin 0#2 p.wires.btnA))
    |>.append (strobe_sublist _ (.pin 1#2 p.wires.btnB))
    |>.append (strobe_sublist _ (.pin 2#2 p.wires.btnC))
    |>.append (strobe_sublist _ (.adcdone p.adcData))
    |>.append (strobe_sublist _ (.almsw p.wires.almSw))
    |>.append (strobe_sublist _ (.hwr p.hAddr p.hWdata))
    |>.append (strobe_sublist _ (.hrd p.hAddr))

theorem allEvents_portRank (p : InPorts) :
    p.allEvents.map portRank = [0, 1, 2, 3, 4, 5, 7, 8, 9, 10] := rfl

theorem wellFormed_of_mem_allEvents {p : InPorts} {i : Instr} (h : i ∈ p.allEvents) :
    i.wellFormed = true := by
  revert i
  simp only [InPorts.allEvents, List.forall_mem_cons]
  exact ⟨rfl, rfl, rfl, rfl, rfl, rfl, rfl, rfl, rfl, rfl, List.forall_mem_nil _⟩

/-- Settles O59: order and well-formedness come down from `InPorts.allEvents`, and an operation is an
event by the strobe of its own port. -/
theorem coincidingEventsComeInOrder : Obligations.CoincidingEventsComeInOrder := by
  intro before p
  have hsub := events_sublist_allEvents before p
  refine ⟨?rank, fun i hi => wellFormed_of_mem_allEvents (hsub.subset hi), fun i => ?mem,
    fun s => rfl⟩
  case rank =>
    have hrising : (p.allEvents.map portRank).Pairwise (· < ·) := by
      rw [allEvents_portRank]
      decide
    exact hrising.sublist (hsub.map portRank)
  case mem =>
    simp only [InPorts.events, List.mem_append, mem_strobe, bne_iff_ne]
    cases i with
    | pin b l => simp [level_changed_iff, or_assoc]
    | almsw l => simpa using level_changed_iff (q := True) (now := p.wires.almSw)
    | nop | reset | ftick | stick | adcdone v | hwr a d | hrd a => simp

end Sys2Proof.Machine
end

section
/-! PROOFS. RESET and the idle step: RESET is a function of durable storage and the input latches, all of
which it keeps (70_reset_and_hazards.md R330, R332, R333), and a step with no event to come is that of NOP
(45_host.md R292). -/

namespace Sys2Proof.Machine

theorem exec_reset (s : State) : exec .reset s = .next (opReset Config.hw s) :=
  exec_eq_next_iff.mpr .reset

/-- wrap1 without the subtraction of its formula (20_memory.md R89). -/
theorem wrap1_succ (v : Byte) (k : Nat) :
    wrap1 v (k + 1) = BitVec.ofNat 8 ((v.toNat + k) % (k + 1) + 1) := rfl

/-- Settles O27: each block is its own load or clearing, the legalisation functions written out. -/
theorem resetLoadsAndClears : Obligations.ResetLoadsAndClears := by
  intro s nv
  rw [exec_reset]
  simp only [opReset, Clock.load, Alarm.load, Dimmer.load, Buttons.cleared, Button.cleared, Mux.cleared,
    clearedDispBuf, modN, wrap1_succ _ 30, wrap1_succ _ 11, flag1, nvRead, Buttons.get, nv,
    Nat.reduceAdd, BitVec.reduceToNat]

/-- RESET keeps the pin latches (70_reset_and_hazards.md R330). -/
theorem opReset_pinLvl (c : Config) (s : State) (id : ButtonId) :
    ((opReset c s).buttons.get id).pinLvl = (s.buttons.get id).pinLvl := by
  simp only [opReset, Buttons.get_cleared, Button.cleared]

/-- RESET depends on durable storage and the input latches alone (70_reset_and_hazards.md R332). -/
theorem opReset_congr {c : Config} {s s' : State} (hnv : s.nv = s'.nv)
    (hsw : s.alarm.almswLvl = s'.alarm.almswLvl)
    (hpin : ∀ id, (s.buttons.get id).pinLvl = (s'.buttons.get id).pinLvl) (hin : s.inbox = s'.inbox) :
    opReset c s = opReset c s' := by
  have hreads : ∀ a ∈ resetAddrs, nvRead c s a = nvRead c s' a := by
    intro a _
    simp only [nvRead, hnv]
  calc opReset c s = { opReset c s' with nv := s.nv } := opReset_eq_of_reads hreads hsw hpin hin
    _ = { opReset c s' with nv := s'.nv } := by rw [hnv]

/-- RESET keeps all that it depends on, so a second one gives what the first gave. -/
theorem opReset_opReset (c : Config) (s : State) : opReset c (opReset c s) = opReset c s :=
  opReset_congr rfl rfl (opReset_pinLvl c s) rfl

/-- Settles O28. -/
theorem resetIsIdempotent : Obligations.ResetIsIdempotent := by
  intro s t hreset
  rw [exec_reset] at hreset
  obtain rfl := Host.Outcome.next.inj hreset
  rw [exec_reset, opReset_opReset]

/-- Settles O29. -/
theorem resetDependsOnStorageAndLatchesOnly : Obligations.ResetDependsOnStorageAndLatchesOnly := by
  intro s s' hnv hsw hpin hin
  rw [exec_reset, exec_reset, opReset_congr hnv hsw hpin hin]

/-- Settles O30: `State.reset` is `State.resetOf` of the hardware's configuration. -/
theorem resetOfTheStartStateIsTheStartState : Obligations.ResetOfTheStartStateIsTheStartState :=
  (exec_reset State.reset).trans (congrArg Host.Outcome.next (opReset_resetOf Config.hw))

theorem nextEvent_of_inbox_nil {s : State} (h : s.inbox = []) : nextEvent s = none := by
  simp only [nextEvent, h]

theorem step_of_nextEvent_none {s : State} (h : nextEvent s = none) : step s = idleStep s := by
  simp only [step, h]

/-- Settles O8: with no next event the step is `idleStep`, which starts an operation and does no more. -/
theorem stepWithoutEventIsNop : Obligations.StepWithoutEventIsNop :=
  fun _ hinbox => step_of_nextEvent_none (nextEvent_of_inbox_nil hinbox)

end Sys2Proof.Machine
end
